-- ==== Sys2Proof/Word.lean ====
section
/-! DEFINITION. The word types of the A5/1 LFSR Engine: the registers, the key, the opcode, the error
code and the fields of the command port (10_state.md R20, R26, R29, R31; 30_encoding.md R56, R58). -/

namespace Sys2Proof

/-- R1 holds 19 bits, bit 0 at the output end (R13, R20). -/
abbrev Reg1 := BitVec 19
/-- R2 holds 22 bits, bit 0 at the output end (R13, R20). -/
abbrev Reg2 := BitVec 22
/-- R3 holds 23 bits, bit 0 at the output end (R13, R20). -/
abbrev Reg3 := BitVec 23
/-- The 64-bit key K, as `cmd_key[63:0]` and as the KEY latch (R9, R31, R61). -/
abbrev Key := BitVec 64
/-- The 4-bit opcode field `cmd_op[3:0]` (R11, R60). -/
abbrev Opcode := BitVec 4
/-- The 2-bit error code ERR (R11, R26). -/
abbrev ErrCode := BitVec 2
/-- The 7-bit tick counter J (R11, R29). -/
abbrev TickCount := BitVec 7

/-- The three data fields of the command port (R56, R58). `count` is the unsigned value the host drives
on `cmd_count`; the port has COUNT_WIDTH wires, so the block sees it modulo 2^COUNT_WIDTH
(`Sys2Proof.portCount`, log entry 14). -/
structure CommandPort where
  /-- `cmd_op[3:0]`. -/
  op : Opcode
  /-- `cmd_key[63:0]`. -/
  key : Key
  /-- `cmd_count`, read as an unsigned number. -/
  count : Nat
  deriving DecidableEq, Repr

end Sys2Proof
end

