-- ==== Sys2Proof/Config.lean ====
section
/-! DEFINITION. What is fixed for a block: the tap positions and tick counts (00_scope.md R7 to R9,
10_state.md R24), the width a machine has after `State.reset` where nothing else is said (R10), and the
model's one free value. -/

namespace Sys2Proof.Config

/-- KEY_BITS: the key is exactly 64 bits (R9). -/
def keyBits : Nat := 64
/-- MIX_TICKS: one mixing tick per key bit (R9). -/
def mixTicks : Nat := 64
/-- WARMUP_TICKS: exactly 100 warm-up ticks (R9). -/
def warmupTicks : Nat := 100

/-- FB_TAPS(R1), indexed from the output end (R8, R24). -/
def fbTaps1 : List Nat := [13, 16, 17, 18]
/-- FB_TAPS(R2) (R8, R24). -/
def fbTaps2 : List Nat := [20, 21]
/-- FB_TAPS(R3) (R8, R24). -/
def fbTaps3 : List Nat := [7, 20, 21, 22]
/-- CLK_TAP(R1) (R8, R24). -/
def clkTap1 : Nat := 8
/-- CLK_TAP(R2) (R8, R24). -/
def clkTap2 : Nat := 10
/-- CLK_TAP(R3) (R8, R24). -/
def clkTap3 : Nat := 10

/-- COUNT_WIDTH is an open parameter with COUNT_WIDTH >= 1 (R10): every machine carries its own width in
`State.countWidth`, and the statements hold for every width. This number is only the width that
`State.reset` and `decodeTableWord` have, because the interface gives them no argument: 8, the width of
the listings in 95_test_vectors.md. DESIGN CHOICE, log entry 2; unsafe for a claim that names it. -/
def countWidth : Nat := 8

/-- R10: COUNT_WIDTH >= 1. -/
abbrev LegalWidth (w : Nat) : Prop := 1 ≤ w

/-- FREE VALUE: the bit that `KEY[63 - J]` reads when J > 63, where the index is below 0 and the spec
names no bit. No reachable state has PHASE = MIX and J > 63 (R29), so only a state that no run reaches
meets it. Log entry 5; safe. -/
opaque keyBitBeyond : Key → TickCount → Bool

end Sys2Proof.Config
end

