-- ==== Sys2Proof/Machine/State.lean ====
section
/-! DEFINITION. The state of the block as plain data (10_state.md R20 to R37), the host's side of it (the moves to
come and the bits taken so far), the reasons a step can stop, and the state after reset (R36). -/

namespace Sys2Proof.Machine

/-- PHASE, the sequencer's state (R28). -/
inductive Phase where
  /-- 0b00: no command in progress; a command may be accepted. -/
  | idle
  /-- 0b01: INIT is running its 64 mixing ticks. -/
  | mix
  /-- 0b10: INIT is running its 100 warm-up ticks. -/
  | warm
  /-- 0b11: NEXT is producing keystream bits. -/
  | gen
  deriving DecidableEq, Repr

/-- The three shift registers, the block's whole register file (R20). -/
@[ext]
structure Regs where
  /-- R1. -/
  r1 : Reg1
  /-- R2. -/
  r2 : Reg2
  /-- R3. -/
  r3 : Reg3
  deriving DecidableEq, Repr

/-- The input ports as sampled at one tick (30_encoding.md R56). -/
structure Inputs where
  /-- `rst`. -/
  rst : Bool
  /-- `cmd_valid`. -/
  cmdValid : Bool
  /-- `cmd_op`, `cmd_key`, `cmd_count`. -/
  cmd : CommandPort
  /-- `ks_ready`. -/
  ksReady : Bool
  deriving DecidableEq, Repr

/-- What the host does next (60_exceptions.md R107), at either of the two levels of 00_scope.md R16. -/
inductive HostMove where
  /-- One tick with these input ports: the tick level. -/
  | tick (inputs : Inputs)
  /-- One whole command: the transaction level. The host offers it until the block accepts it, and takes
  every bit it emits. -/
  | command (port : CommandPort)
  deriving DecidableEq, Repr

/-- The state. The first seven fields are the block's (R36); the last three are the model's own: the open
parameter COUNT_WIDTH, and the host's side of the ports. -/
@[ext]
structure State where
  /-- R1, R2, R3 (R20). -/
  regs : Regs
  /-- INITIALIZED (R25). -/
  initialized : Bool
  /-- ERR (R26). -/
  err : ErrCode
  /-- PHASE (R28). -/
  phase : Phase
  /-- J, the tick counter (R29). -/
  j : TickCount
  /-- REM, the COUNT_WIDTH-bit counter of bits still to emit (R30), as an unsigned number. -/
  rem : Nat
  /-- KEY, the key latch (R31). -/
  key : Key
  /-- COUNT_WIDTH, the open parameter (R10); no step writes it. Log entry 2. -/
  countWidth : Nat
  /-- The host's moves to come, next one first; a host with none left drives every input 0. Log entry 3. -/
  moves : List HostMove
  /-- The keystream bits transferred so far, first one first (20_memory.md R42). Log entry 4. -/
  sent : List Bool
  deriving DecidableEq, Repr

/-- Why the machine would stop with a fault: never. The block reports its two errors in ERR and goes on
(60_exceptions.md R91, R96), and the spec names no event that stops it; so the type is empty. No meaning raises
a fault, which is safe. Log entry 9. -/
inductive Fault where
  deriving DecidableEq, Repr

/-- Why a command would have no meaning. -/
inductive Refusal where
  /-- Raised only by an arm of `exec` whose command is not modelled yet; every command is, so nothing raises it.
  Safe: a refusal proves nothing. -/
  | notModelled (mnemonic : String)
  deriving DecidableEq, Repr

/-- The state after reset: every field of the block as R36 gives it, COUNT_WIDTH as `Config.countWidth` says, no
move of the host to come and no bit taken. -/
def State.reset : State :=
  { regs := { r1 := 0x00000#19, r2 := 0x000000#22, r3 := 0x000000#23 }
    initialized := false
    err := 0#2
    phase := .idle
    j := 0#7
    rem := 0
    key := 0#64
    countWidth := Config.countWidth
    moves := []
    sent := [] }

end Sys2Proof.Machine
end

