-- ==== Sys2Proof/Machine/Datapath.lean ====
section
/-! DEFINITION. The LFSR datapath of 40_datapath.md: the pure functions (R65 to R72) and the three micro-operations
on the registers (R73 to R75). The shift's orientation is the one that 90_conflicts.md C1 resolves (log entry 11). -/

namespace Sys2Proof.Machine

/-- The XOR of the tap bits of a register (R65). -/
def tapXor {n : Nat} (taps : List Nat) (r : BitVec n) : Bool :=
  taps.foldl (fun acc t => acc ^^ r.getLsbD t) false

/-- FB1 (R65). -/
def fb1 (r : Reg1) : Bool := tapXor Config.fbTaps1 r
/-- FB2 (R65). -/
def fb2 (r : Reg2) : Bool := tapXor Config.fbTaps2 r
/-- FB3 (R65). -/
def fb3 (r : Reg3) : Bool := tapXor Config.fbTaps3 r

/-- SHIFT_n: (b << (n-1)) | (r >> 1), which drops bit 0 and puts b at bit n-1 (R66). -/
def shiftIn {n : Nat} (r : BitVec n) (b : Bool) : BitVec n :=
  ((BitVec.ofBool b).setWidth n <<< (n - 1)) ||| (r >>> 1)

/-- ADV1 (R67). -/
def adv1 (r : Reg1) : Reg1 := shiftIn r (fb1 r)
/-- ADV2 (R67). -/
def adv2 (r : Reg2) : Reg2 := shiftIn r (fb2 r)
/-- ADV3 (R67). -/
def adv3 (r : Reg3) : Reg3 := shiftIn r (fb3 r)

/-- MAJ: 1 when the integer sum of the three bits is at least 2 (R68). -/
def maj (c1 c2 c3 : Bool) : Bool := decide (c1.toNat + c2.toNat + c3.toNat ≥ 2)

/-- R1[8], the clocking bit of R1 (R68). -/
def clk1 (r : Regs) : Bool := r.r1.getLsbD Config.clkTap1
/-- R2[10], the clocking bit of R2 (R68). -/
def clk2 (r : Regs) : Bool := r.r2.getLsbD Config.clkTap2
/-- R3[10], the clocking bit of R3 (R68). -/
def clk3 (r : Regs) : Bool := r.r3.getLsbD Config.clkTap3

/-- CLOCK_TICK: the first register, in the order R1, R2, R3, whose clocking bit equals the majority advances
(R69). -/
def clockTick (r : Regs) : Regs :=
  let m := maj (clk1 r) (clk2 r) (clk3 r)
  if clk1 r = m then { r with r1 := adv1 r.r1 }
  else if clk2 r = m then { r with r2 := adv2 r.r2 }
  else if clk3 r = m then { r with r3 := adv3 r.r3 }
  else r

/-- OUTBIT: the XOR of the three bits 0, before clocking (R72). -/
def outBit (r : Regs) : Bool := r.r1.getLsbD 0 ^^ r.r2.getLsbD 0 ^^ r.r3.getLsbD 0

/-- MIX_TICK(b): all three registers shift in b ^ feedback at once (R73). -/
def mixTick (b : Bool) (r : Regs) : Regs :=
  { r1 := shiftIn r.r1 (b ^^ fb1 r.r1)
    r2 := shiftIn r.r2 (b ^^ fb2 r.r2)
    r3 := shiftIn r.r3 (b ^^ fb3 r.r3) }

/-- WARM_TICK: a majority-clocking tick, no bit emitted (R74). -/
def warmTick (r : Regs) : Regs := clockTick r

/-- The registers after n majority-clocking ticks. -/
def clockTicks : Nat → Regs → Regs
  | 0, r => r
  | n + 1, r => clockTicks n (clockTick r)

/-- The bits of n keystream ticks: each is taken before its own tick's clocking (R75, R81). -/
def keystream : Nat → Regs → List Bool
  | 0, _ => []
  | n + 1, r => outBit r :: keystream n (clockTick r)

/-- All three registers zero: reset, and the clear at INIT acceptance (R21, R80). -/
def zeroRegs : Regs := { r1 := 0#19, r2 := 0#22, r3 := 0#23 }

/-- One mixing tick for each bit of a key bit sequence, in its order (R73, R80). -/
def mixSequence (bits : List Bool) (r : Regs) : Regs := bits.foldl (fun r b => mixTick b r) r

end Sys2Proof.Machine
end

