-- ==== Sys2Proof/Machine/Flags.lean ====
section
/-! DEFINITION. The status flags and the outputs that show state: ERR's codes (60_exceptions.md R91), `busy`
(10_state.md R27) and the nine output ports (R33). The block has no arithmetic condition code (R27). -/

namespace Sys2Proof.Machine

/-- ERR code 0, NONE (R91). -/
def errNone : ErrCode := 0#2
/-- ERR code 1, NOT_INITIALIZED (R91, R92). -/
def errNotInitialized : ErrCode := 1#2
/-- ERR code 2, ILLEGAL_COMMAND (R91, R93). -/
def errIllegalCommand : ErrCode := 2#2

/-- The two bits of PHASE (R28). -/
def Phase.code : Phase → BitVec 2
  | .idle => 0b00#2
  | .mix => 0b01#2
  | .warm => 0b10#2
  | .gen => 0b11#2

/-- `busy = (PHASE != IDLE)`, derived and not stored (R27). -/
def busy (s : State) : Bool := decide (s.phase ≠ .idle)

/-- `cmd_ready = (PHASE == IDLE and not rst)` (R33). -/
def cmdReady (rst : Bool) (s : State) : Bool := decide (s.phase = .idle) && !rst

/-- `ks_valid = (PHASE == GEN)` (R33). -/
def ksValid (s : State) : Bool := decide (s.phase = .gen)

end Sys2Proof.Machine
end

