-- ==== Sys2Proof/Machine/Operands.lean ====
section
/-! DEFINITION. The operand forms: the key's bits in the order mixing takes them (20_memory.md R40). The other
operand, NEXT's count, is the unsigned number that the decoder reads (30_encoding.md R61; `portCount`). The block has
no register operand, no immediate and no addressing mode (R61). -/

namespace Sys2Proof.Machine

/-- The key bit of mixing tick J: k_J = K[63 - J] (R40). Where J > 63 the spec names no bit, and the bit is free
(log entry 5). -/
def keyBit (k : Key) (j : TickCount) : Bool :=
  if j.toNat ≤ 63 then k.getLsbD (63 - j.toNat) else Config.keyBitBeyond k j

/-- The key bit sequence k_0 .. k_63, in the order of mixing (R40, R73). -/
def keySequence (k : Key) : List Bool :=
  (List.range Config.mixTicks).map fun j => keyBit k (BitVec.ofNat 7 j)

end Sys2Proof.Machine
end

