-- ==== Sys2Proof/Machine/Ops.lean ====
section
/-! DEFINITION. The named operations on the state that the commands and the sequencer share, reporting an error among
them. The block has no memory (20_memory.md R38), so there is none on memory. It has no trap either: what stands here
for taking an exception is `raiseErr`, and nothing returns from one (60_exceptions.md R96, R98). -/

namespace Sys2Proof.Machine

/-- Write R1, R2 and R3. -/
def State.setRegs (s : State) (r : Regs) : State := { s with regs := r }
/-- Write INITIALIZED. -/
def State.setInitialized (s : State) (b : Bool) : State := { s with initialized := b }
/-- Write ERR. -/
def State.setErr (s : State) (e : ErrCode) : State := { s with err := e }
/-- Write PHASE. -/
def State.setPhase (s : State) (p : Phase) : State := { s with phase := p }
/-- Write J. -/
def State.setJ (s : State) (j : TickCount) : State := { s with j := j }
/-- Write REM. -/
def State.setRem (s : State) (n : Nat) : State := { s with rem := n }
/-- Write KEY. -/
def State.setKey (s : State) (k : Key) : State := { s with key := k }
/-- Replace the host's moves to come. -/
def State.setMoves (s : State) (ms : List HostMove) : State := { s with moves := ms }
/-- emit: bits go to the host, in generation order (R15, R42). -/
def State.emit (s : State) (bits : List Bool) : State := { s with sent := s.sent ++ bits }

/-- Report an error at acceptance: its code goes into ERR and the command has no other effect
(60_exceptions.md R96). -/
def raiseErr (code : ErrCode) (s : State) : State := s.setErr code

/-- A command that is carried out writes ERR <- NONE (10_state.md R26). -/
def carryOut (s : State) : State := s.setErr errNone

/-- An offered command takes effect when it is accepted, which needs PHASE = IDLE; while the block is busy nothing is
accepted and no state changes because of the command port (30_encoding.md R57). Log entry 7. -/
def onAcceptance (s : State) (effect : State → State) : Host.Outcome State Fault Refusal :=
  if s.phase = .idle then .next (effect s) else .next s

/-- The registers that INIT leaves: cleared, 64 mixing ticks, 100 warm-up ticks (41_commands.md R80). -/
def loadKey (k : Key) : Regs :=
  clockTicks Config.warmupTicks (mixSequence (keySequence k) zeroRegs)

/-- Produce n keystream bits: emit them and leave the registers n ticks on (R81). -/
def produce (n : Nat) (s : State) : State :=
  (s.emit (keystream n s.regs)).setRegs (clockTicks n s.regs)

/-- REM - 1 on a COUNT_WIDTH-bit unsigned counter (10_state.md R30, R77). Log entry 6: at 0, which no reachable GEN
state holds, the counter wraps. -/
def remPred (countWidth n : Nat) : Nat := (n + (2 ^ countWidth - 1)) % 2 ^ countWidth

/-- What a tick with rst = 1 leaves: every piece of the block's state at its reset value
(70_reset_and_hazards.md R108). COUNT_WIDTH is no state, and the bits already transferred stay transferred (R109). -/
def resetBlock (s : State) : State :=
  { State.reset with countWidth := s.countWidth, moves := s.moves, sent := s.sent }

end Sys2Proof.Machine
end

