-- ==== Sys2Proof/Machine/Commands.lean ====
section
/-! DEFINITION. NOP, INIT and NEXT: each one's whole effect at the transaction level, which is normative (00_scope.md
R16; 41_commands.md R79 to R81), and its acceptance step at the tick level. -/

namespace Sys2Proof.Machine

/-- NOP: ERR <- NONE (R79). -/
def nopEffect (s : State) : State := carryOut s

/-- INIT K: ERR <- NONE, clear, 64 mixing ticks, 100 warm-up ticks, INITIALIZED <- 1 (R80). KEY holds the operand
afterwards (10_state.md R31; log entry 8). -/
def initEffect (key : Key) (s : State) : State :=
  (((carryOut s).setRegs (loadKey key)).setInitialized true).setKey key

/-- NEXT C: NOT_INITIALIZED when INITIALIZED = 0, for every count; else ERR <- NONE and C bits (R81). -/
def nextEffect (count : Nat) (s : State) : State :=
  if s.initialized then produce count (carryOut s) else raiseErr errNotInitialized s

/-- NOP, one atomic step (R79). -/
def execNop (s : State) : Host.Outcome State Fault Refusal := onAcceptance s nopEffect

/-- INIT K, one atomic step (R80). -/
def execInit (key : Key) (s : State) : Host.Outcome State Fault Refusal := onAcceptance s (initEffect key)

/-- NEXT C, one atomic step (R81). -/
def execNext (count : Nat) (s : State) : Host.Outcome State Fault Refusal := onAcceptance s (nextEffect count)

/-- NOP's acceptance step: ERR <- NONE, PHASE stays IDLE (R79). -/
def acceptNop (s : State) : State := carryOut s

/-- INIT's acceptance step (R80). -/
def acceptInit (key : Key) (s : State) : State :=
  (((((carryOut s).setInitialized false).setRegs zeroRegs).setKey key).setJ 0#7).setPhase .mix

/-- NEXT's acceptance step (R81). -/
def acceptNext (count : Nat) (s : State) : State :=
  if s.initialized then
    if count = 0 then carryOut s else ((carryOut s).setRem count).setPhase .gen
  else raiseErr errNotInitialized s

end Sys2Proof.Machine
end

