-- ==== Sys2Proof/Machine/Reserved.lean ====
section
/-! DEFINITION. The reserved opcodes 0x3 to 0xF: each is accepted, raises ILLEGAL_COMMAND and does nothing else, whatever
INITIALIZED is (41_commands.md R82; 60_exceptions.md R93, R97). -/

namespace Sys2Proof.Machine

/-- RESERVED(op): ERR <- ILLEGAL_COMMAND, nothing else changes (R82). The same at both levels: PHASE stays IDLE. -/
def reservedEffect (s : State) : State := raiseErr errIllegalCommand s

/-- Reserved opcode 0x3 (R82). -/
def execReserved3 (s : State) : Host.Outcome State Fault Refusal := onAcceptance s reservedEffect

/-- Reserved opcode 0x4 (R82). -/
def execReserved4 (s : State) : Host.Outcome State Fault Refusal := onAcceptance s reservedEffect

/-- Reserved opcode 0x5 (R82). -/
def execReserved5 (s : State) : Host.Outcome State Fault Refusal := onAcceptance s reservedEffect

/-- Reserved opcode 0x6 (R82). -/
def execReserved6 (s : State) : Host.Outcome State Fault Refusal := onAcceptance s reservedEffect

/-- Reserved opcode 0x7 (R82). -/
def execReserved7 (s : State) : Host.Outcome State Fault Refusal := onAcceptance s reservedEffect

/-- Reserved opcode 0x8 (R82). -/
def execReserved8 (s : State) : Host.Outcome State Fault Refusal := onAcceptance s reservedEffect

/-- Reserved opcode 0x9 (R82). -/
def execReserved9 (s : State) : Host.Outcome State Fault Refusal := onAcceptance s reservedEffect

/-- Reserved opcode 0xA (R82). -/
def execReservedA (s : State) : Host.Outcome State Fault Refusal := onAcceptance s reservedEffect

/-- Reserved opcode 0xB (R82). -/
def execReservedB (s : State) : Host.Outcome State Fault Refusal := onAcceptance s reservedEffect

/-- Reserved opcode 0xC (R82). -/
def execReservedC (s : State) : Host.Outcome State Fault Refusal := onAcceptance s reservedEffect

/-- Reserved opcode 0xD (R82). -/
def execReservedD (s : State) : Host.Outcome State Fault Refusal := onAcceptance s reservedEffect

/-- Reserved opcode 0xE (R82). -/
def execReservedE (s : State) : Host.Outcome State Fault Refusal := onAcceptance s reservedEffect

/-- Reserved opcode 0xF (R82). -/
def execReservedF (s : State) : Host.Outcome State Fault Refusal := onAcceptance s reservedEffect

end Sys2Proof.Machine
end

