-- ==== Sys2Proof/Syntax.lean ====
section
/-! DEFINITION. The commands, one constructor for each row of spec/opcode_table.json (30_encoding.md R60). A
constructor holds exactly the operand that its opcode reads (R58). -/

namespace Sys2Proof

/-- The sixteen commands of the opcode map (R60). -/
inductive Instr where
  /-- NOP, op 0x0 (41_commands.md R79). -/
  | nop
  /-- INIT K, op 0x1 (R80). -/
  | init (key : Key)
  /-- NEXT C, op 0x2 (R81); `count` is the unsigned operand C (R61). -/
  | next (count : Nat)
  /-- Reserved opcode 0x3 (R62, R82). -/
  | reserved3
  /-- Reserved opcode 0x4 (R62, R82). -/
  | reserved4
  /-- Reserved opcode 0x5 (R62, R82). -/
  | reserved5
  /-- Reserved opcode 0x6 (R62, R82). -/
  | reserved6
  /-- Reserved opcode 0x7 (R62, R82). -/
  | reserved7
  /-- Reserved opcode 0x8 (R62, R82). -/
  | reserved8
  /-- Reserved opcode 0x9 (R62, R82). -/
  | reserved9
  /-- Reserved opcode 0xA (R62, R82). -/
  | reservedA
  /-- Reserved opcode 0xB (R62, R82). -/
  | reservedB
  /-- Reserved opcode 0xC (R62, R82). -/
  | reservedC
  /-- Reserved opcode 0xD (R62, R82). -/
  | reservedD
  /-- Reserved opcode 0xE (R62, R82). -/
  | reservedE
  /-- Reserved opcode 0xF (R62, R82). -/
  | reservedF
  deriving DecidableEq, Repr

end Sys2Proof
end

