-- ==== Sys2Proof/WellFormed.lean ====
section
/-! DEFINITION. When a command can be driven on a port of a given COUNT_WIDTH (30_encoding.md R61, R62). -/

namespace Sys2Proof

/-- R61: a NEXT operand satisfies 0 <= C <= 2^COUNT_WIDTH - 1. Every 64-bit value is a legal key (R80) and the
other commands read no operand, so nothing else is asked (R62). -/
def Instr.wellFormed (countWidth : Nat) : Instr → Bool
  | .next c => decide (c < 2 ^ countWidth)
  | .nop | .init _ | .reserved3 | .reserved4 | .reserved5 | .reserved6 | .reserved7 | .reserved8
  | .reserved9 | .reservedA | .reservedB | .reservedC | .reservedD | .reservedE | .reservedF => true

end Sys2Proof
end

