-- ==== Sys2Proof/Decode.lean ====
section
/-! DEFINITION. From the command port, and from the command word CW, to a command; then the encoder
(30_encoding.md R58 to R62). The port decoder is total: every opcode selects one row (R60). The word decoder
refuses, by name, only a number that is too wide to be a command word. -/

namespace Sys2Proof

/-- Why a number is no command word. -/
inductive DecodeError where
  /-- It has a bit above CW[67+COUNT_WIDTH], the last bit of a command word (R59). -/
  | wordTooWide
  deriving DecidableEq, Repr

/-- A row of the opcode table: a command word belongs to it when its masked bits are `pattern` (R60). -/
structure OpcodeRow where
  /-- The table's mask. -/
  mask : Nat
  /-- The table's match. -/
  pattern : Nat
  deriving DecidableEq, Repr

/-- The opcode table's sixteen rows, in its order: only CW[3:0] is masked (R60). -/
def opcodeTable : List OpcodeRow :=
  [⟨0xF, 0x0⟩, ⟨0xF, 0x1⟩, ⟨0xF, 0x2⟩, ⟨0xF, 0x3⟩, ⟨0xF, 0x4⟩, ⟨0xF, 0x5⟩, ⟨0xF, 0x6⟩, ⟨0xF, 0x7⟩] ++
  [⟨0xF, 0x8⟩, ⟨0xF, 0x9⟩, ⟨0xF, 0xA⟩, ⟨0xF, 0xB⟩, ⟨0xF, 0xC⟩, ⟨0xF, 0xD⟩, ⟨0xF, 0xE⟩, ⟨0xF, 0xF⟩]

/-- What the block sees of `cmd_count`: COUNT_WIDTH wires, so the value modulo 2^COUNT_WIDTH
(R56, R61; log entry 14). -/
def portCount (countWidth count : Nat) : Nat := count % 2 ^ countWidth

/-- R60: the decoder selects the command from `op` alone; R58: the fields that it does not read are
ignored. -/
def decodePort (countWidth : Nat) (p : CommandPort) : Instr :=
  match p.op.toNat with
  | 0x0 => .nop
  | 0x1 => .init p.key
  | 0x2 => .next (portCount countWidth p.count)
  | 0x3 => .reserved3
  | 0x4 => .reserved4
  | 0x5 => .reserved5
  | 0x6 => .reserved6
  | 0x7 => .reserved7
  | 0x8 => .reserved8
  | 0x9 => .reserved9
  | 0xA => .reservedA
  | 0xB => .reservedB
  | 0xC => .reservedC
  | 0xD => .reservedD
  | 0xE => .reservedE
  | _ => .reservedF

/-- The three fields of a command word: CW[3:0], CW[67:4] and the bits from 68 up (R59). -/
def splitWord (w : Nat) : CommandPort :=
  { op := BitVec.ofNat 4 w, key := BitVec.ofNat 64 (w >>> 4), count := w >>> 68 }

/-- A command word has 68 + COUNT_WIDTH bits (R59); a wider number is refused by name. -/
def decodeWord (countWidth w : Nat) : Except DecodeError Instr :=
  if w < 2 ^ (68 + countWidth) then .ok (decodePort countWidth (splitWord w)) else .error .wordTooWide

/-- The opcode of a command (R60). -/
def Instr.opcode : Instr → Opcode
  | .nop => 0x0#4
  | .init _ => 0x1#4
  | .next _ => 0x2#4
  | .reserved3 => 0x3#4
  | .reserved4 => 0x4#4
  | .reserved5 => 0x5#4
  | .reserved6 => 0x6#4
  | .reserved7 => 0x7#4
  | .reserved8 => 0x8#4
  | .reserved9 => 0x9#4
  | .reservedA => 0xA#4
  | .reservedB => 0xB#4
  | .reservedC => 0xC#4
  | .reservedD => 0xD#4
  | .reservedE => 0xE#4
  | .reservedF => 0xF#4

/-- The port fields that issue a command; a field that the command does not read is driven 0, as `.op`
drives it (R58, R63). -/
def encodePort (i : Instr) : CommandPort :=
  { op := i.opcode
    key := match i with
      | .init k => k
      | .nop | .next _ | .reserved3 | .reserved4 | .reserved5 | .reserved6 | .reserved7 | .reserved8
      | .reserved9 | .reservedA | .reservedB | .reservedC | .reservedD | .reservedE | .reservedF => 0#64
    count := match i with
      | .next c => c
      | .nop | .init _ | .reserved3 | .reserved4 | .reserved5 | .reserved6 | .reserved7 | .reserved8
      | .reserved9 | .reservedA | .reservedB | .reservedC | .reservedD | .reservedE | .reservedF => 0 }

/-- CW = { count, key, op } (R59). -/
def joinWord (p : CommandPort) : Nat := p.count * 2 ^ 68 + p.key.toNat * 2 ^ 4 + p.op.toNat

/-- The command word of a command (R59). -/
def encode (i : Instr) : Nat := joinWord (encodePort i)

/-- The command that the decoder reads from the `nbits`-bit word `w`, every further bit of the command word 0.
The word has the width of `Config.countWidth` (log entry 15). -/
def decodeTableWord (nbits w : Nat) : Option Instr :=
  match decodeWord Config.countWidth (w % 2 ^ nbits) with
  | .ok i => some i
  | .error _ => none

end Sys2Proof
end

