-- ==== Sys2Proof/Machine/Sequencer.lean ====
section
/-! DEFINITION. The tick level: the bit-serial sequencer (40_datapath.md R77), command acceptance (30_encoding.md R57),
reset (70_reset_and_hazards.md R108), and what the host's next move asks of the block (60_exceptions.md R107). -/

namespace Sys2Proof.Machine

/-- The acceptance step of each command (41_commands.md R79 to R82). -/
def accept (i : Instr) (s : State) : State :=
  match i with
  | .nop => acceptNop s
  | .init key => acceptInit key s
  | .next count => acceptNext count s
  | .reserved3 | .reserved4 | .reserved5 | .reserved6 | .reserved7 | .reserved8 | .reserved9
  | .reservedA | .reservedB | .reservedC | .reservedD | .reservedE | .reservedF => reservedEffect s

/-- A tick in PHASE = IDLE: accept the offered command, or no change (R57, R77). -/
def idleTick (p : Inputs) (s : State) : State :=
  if p.cmdValid then accept (decodePort s.countWidth p.cmd) s else s

/-- A tick in PHASE = MIX: MIX_TICK(KEY[63 - J]), and on to WARM after J = 63 (R73, R77). At J = 127, which no run reaches,
J + 1 wraps to 0 (log entry 23). -/
def mixPhaseTick (s : State) : State :=
  let t := s.setRegs (mixTick (keyBit s.key s.j) s.regs)
  if s.j = 63#7 then (t.setPhase .warm).setJ 0#7 else t.setJ (s.j + 1#7)

/-- A tick in PHASE = WARM: WARM_TICK, and INITIALIZED <- 1 on the last one (R74, R77). At J = 127, which no run reaches,
J + 1 wraps to 0 (log entry 23). -/
def warmPhaseTick (s : State) : State :=
  let t := s.setRegs (warmTick s.regs)
  if s.j = 99#7 then ((t.setPhase .idle).setJ 0#7).setInitialized true else t.setJ (s.j + 1#7)

/-- KS_TICK and the REM step: a tick in PHASE = GEN with ks_ready = 1 (R75, R77). -/
def transferTick (s : State) : State :=
  let t := (s.emit [outBit s.regs]).setRegs (clockTick s.regs)
  if s.rem = 1 then (t.setPhase .idle).setRem 0 else t.setRem (remPred s.countWidth s.rem)

/-- A tick in PHASE = GEN: a transfer, or a hold that changes nothing (R76, R77). -/
def genPhaseTick (p : Inputs) (s : State) : State := if p.ksReady then transferTick s else s

/-- One tick with rst = 0: exactly one of these actions, chosen by PHASE (R77). -/
def sequencerTick (p : Inputs) (s : State) : State :=
  match s.phase with
  | .idle => idleTick p s
  | .mix => mixPhaseTick s
  | .warm => warmPhaseTick s
  | .gen => genPhaseTick p s

/-- One tick: reset has priority over everything (60_exceptions.md R97; R108). -/
def tick (p : Inputs) (s : State) : State := if p.rst then resetBlock s else sequencerTick p s

/-- A host that does nothing: every input 0 (R106). -/
def quietInputs : Inputs := { rst := false, cmdValid := false, cmd := ⟨0#4, 0#64, 0⟩, ksReady := false }

/-- A host that waits to have its command accepted: it keeps offering it (R57, R112) and takes every bit that the
command before it emits (R107). Log entry 13. -/
def waitingInputs (c : CommandPort) : Inputs := { rst := false, cmdValid := true, cmd := c, ksReady := true }

/-- The command that the next step runs as one atomic step, with the state that the move leaves behind: the host's next
move is a whole command and the block is ready for it (R57). -/
def fetch (s : State) : Option (Instr × State) :=
  match s.moves with
  | .command c :: rest =>
    if s.phase = .idle then some (decodePort s.countWidth c, s.setMoves rest) else none
  | .tick _ :: _ => none
  | [] => none

/-- One tick, where the next step runs no whole command: the host's tick, or the tick of a host that waits, or of one
that does nothing. -/
def advance (s : State) : State :=
  match s.moves with
  | .tick p :: rest => tick p (s.setMoves rest)
  | .command c :: _ => tick (waitingInputs c) s
  | [] => tick quietInputs s

/-- A run of ticks with these inputs. -/
def ticks (ps : List Inputs) (s : State) : State := ps.foldl (fun s p => tick p s) s

/-- The commands accepted along a run of ticks, in order (R57, R87). -/
def acceptedAlong : List Inputs → State → List Instr
  | [], _ => []
  | p :: ps, s =>
    if p.rst = false ∧ p.cmdValid = true ∧ s.phase = .idle then
      decodePort s.countWidth p.cmd :: acceptedAlong ps (tick p s)
    else acceptedAlong ps (tick p s)

/-- Place a command, given as the word `w`, where the next step runs it: it becomes the host's next move, and the
sequencer is idle (PHASE = IDLE, J = REM = 0, R28 to R30), so that the step accepts it. Log entry 16. -/
def placeCommand (nbits w : Nat) (s : State) : State :=
  (((s.setMoves (.command (splitWord (w % 2 ^ nbits)) :: s.moves)).setPhase .idle).setJ 0#7).setRem 0

end Sys2Proof.Machine
end

