-- ==== Sys2Proof/Machine/Codec.lean ====
section
/-! DEFINITION. The host's duties towards the block, outside it: normalising a key source to the 64-bit operand, packing the
keystream, and the XOR with a payload (20_memory.md R41, R43, R44). 00_scope.md R5 leaves the Byte Codec out of the block's
scope; only what the spec's rules say of it stands here. Bytes and code points are plain numbers. -/

namespace Sys2Proof.Codec

/-- The errors that the host itself raises, before any command is issued. -/
inductive HostError where
  /-- `InvalidKeyLength`: the key source is not exactly 64 bits, 8 bytes or 8 characters (60_exceptions.md R94). -/
  | invalidKeyLength
  /-- A key character above U+00FF has no 8-bit form (R41). -/
  | characterOutOfRange
  deriving DecidableEq, Repr

/-- An integer key N: K = N, for 0 <= N <= 2^64 - 1 (R41). -/
def keyOfInt (n : Nat) : Except HostError Key :=
  if n < 2 ^ 64 then .ok (BitVec.ofNat 64 n) else .error .invalidKeyLength

/-- An 8-byte buffer: K = {b_0, ..., b_7}, b_0 in K[63:56] (R41). -/
def keyOfBytes (bs : List (BitVec 8)) : Except HostError Key :=
  match bs with
  | [b0, b1, b2, b3, b4, b5, b6, b7] => .ok (b0 ++ b1 ++ b2 ++ b3 ++ b4 ++ b5 ++ b6 ++ b7)
  | _ => .error .invalidKeyLength

/-- An 8-character text, one code point per byte, then as a buffer (R41). -/
def keyOfText (codePoints : List Nat) : Except HostError Key :=
  if codePoints.length ≠ 8 then .error .invalidKeyLength
  else if codePoints.all (fun c => c < 256) then keyOfBytes (codePoints.map (BitVec.ofNat 8))
  else .error .characterOutOfRange

/-- An unsigned number from its bits, most significant first (R43, R44). -/
def numberOfBits (bits : List Bool) : Nat := bits.foldl (fun n b => 2 * n + b.toNat) 0

/-- Pack a keystream into bytes, MSB first, 8 bits per byte (R43). A length that is no multiple of 8 has no packing:
the spec gives none (91_not_in_source.md N16). -/
def packBytes : List Bool → Option (List (BitVec 8))
  | [] => some []
  | b0 :: b1 :: b2 :: b3 :: b4 :: b5 :: b6 :: b7 :: rest =>
    (packBytes rest).map (BitVec.ofNat 8 (numberOfBits [b0, b1, b2, b3, b4, b5, b6, b7]) :: ·)
  | _ => none

/-- Encryption and decryption: the byte-wise XOR of a data buffer and a keystream buffer of the same length (R43). Buffers
of different lengths answer nothing: the spec gives no XOR of them (log entry 18). -/
def xorBytes (data ks : List (BitVec 8)) : Option (List (BitVec 8)) :=
  if data.length = ks.length then some (List.zipWith (· ^^^ ·) data ks) else none

/-- The number of keystream bits to request for an integer payload: its bit length. None for 0, whose bit length the
spec does not give (R44; 91_not_in_source.md N9; 93_implementation_defined.md I10). -/
def intRequest (payload : Nat) : Option Nat := if payload = 0 then none else some (payload.log2 + 1)

/-- The XOR of an integer payload with the requested bits, the first of them the most significant (R44). Any other number of
bits answers nothing, and so does the payload 0, for which the spec gives no request (log entry 18). -/
def xorInt (payload : Nat) (bits : List Bool) : Option Nat :=
  if intRequest payload = some bits.length then some (payload ^^^ numberOfBits bits) else none

end Sys2Proof.Codec
end

