-- ==== Sys2Proof/Machine/Assembler.lean ====
section
/-! DEFINITION. Command listings: the syntax of 30_encoding.md R63 and the pseudo-instructions of R64. A line is a list of
code points. An assembled line gives the port fields that issue its command (R58); `joinWord` gives the listing's word
(R59). Log entry 19 has the points of the syntax that the spec leaves open. -/

namespace Sys2Proof.Assembler

/-- A line of a listing after parsing (R63, R64). -/
inductive Line where
  /-- `NOP`. -/
  | nop
  /-- `INIT <key>`. -/
  | init (key : Nat)
  /-- `NEXT <count>`. -/
  | next (count : Nat)
  /-- `.op <n>`, a raw opcode. -/
  | op (n : Nat)
  /-- `STEP`, for `NEXT 1`. -/
  | step
  /-- `INIT.TEXT "c0..c7"`. -/
  | initText (codePoints : List Nat)
  /-- `INIT.BYTES b0,..,b7`. -/
  | initBytes (bytes : List Nat)
  deriving DecidableEq, Repr

/-- Why a line gives no command. -/
inductive AsmError where
  /-- No mnemonic of R63 or R64 stands first on the line. -/
  | unknownMnemonic
  /-- The operand is missing, malformed, or one too many. -/
  | badOperand
  /-- A literal out of range (R63). -/
  | literalOutOfRange
  /-- `InvalidKeyLength`: other than 8 units (R64, 60_exceptions.md R94). -/
  | invalidKeyLength
  /-- A character above U+00FF (R64). -/
  | characterOutOfRange
  deriving DecidableEq, Repr

/-- The host's key errors as assembler errors (R64). -/
def ofHostError : Codec.HostError → AsmError
  | .invalidKeyLength => .invalidKeyLength
  | .characterOutOfRange => .characterOutOfRange

/-- `INIT K` on the port (R80). -/
def initPort (r : Except Codec.HostError Key) : Except AsmError CommandPort :=
  match r with
  | .ok k => .ok (encodePort (.init k))
  | .error e => .error (ofHostError e)

/-- `NEXT C` on a port of COUNT_WIDTH wires; a count out of range is an error (R63). -/
def nextPort (countWidth count : Nat) : Except AsmError CommandPort :=
  if count < 2 ^ countWidth then .ok (encodePort (.next count)) else .error .literalOutOfRange

/-- The command of a line (R63, R64). `.op n` drives the raw opcode with key = 0 and count = 0. Which error a line with two
errors reports is the model's choice (log entry 19): INIT.BYTES names a unit of 256 or more before it counts the units, and
INIT.TEXT counts its characters before it looks for one above U+00FF. -/
def assembleLine (countWidth : Nat) : Line → Except AsmError CommandPort
  | .nop => .ok (encodePort .nop)
  | .init k => if k < 2 ^ 64 then .ok (encodePort (.init (BitVec.ofNat 64 k))) else .error .literalOutOfRange
  | .next c => nextPort countWidth c
  | .op n => if n < 16 then .ok { op := BitVec.ofNat 4 n, key := 0#64, count := 0 } else .error .literalOutOfRange
  | .step => nextPort countWidth 1
  | .initText cs => initPort (Codec.keyOfText cs)
  | .initBytes bs =>
    if bs.all (fun b => b < 256) then initPort (Codec.keyOfBytes (bs.map (BitVec.ofNat 8)))
    else .error .literalOutOfRange

/-- A space or a tab. -/
def isBlank (c : Nat) : Bool := c == 32 || c == 9

/-- An upper-case letter as its lower-case one: mnemonics are case-insensitive (R63). -/
def lower (c : Nat) : Nat := if 65 ≤ c ∧ c ≤ 90 then c + 32 else c

/-- Drop the blanks at both ends. -/
def trim (cs : List Nat) : List Nat := ((cs.dropWhile isBlank).reverse.dropWhile isBlank).reverse

/-- `;` starts a comment to the end of the line (R63). -/
def stripComment (cs : List Nat) : List Nat := cs.takeWhile (· != 59)

/-- The value of a digit, hexadecimal ones included. -/
def digitValue (c : Nat) : Option Nat :=
  if 48 ≤ c ∧ c ≤ 57 then some (c - 48) else if 97 ≤ lower c ∧ lower c ≤ 102 then some (lower c - 87) else none

/-- One digit more on a number in a base. -/
def pushDigit (base : Nat) (acc : Option Nat) (c : Nat) : Option Nat :=
  match acc, digitValue c with
  | some n, some d => if d < base then some (n * base + d) else none
  | _, _ => none

/-- A nonempty run of digits in a base. -/
def number (base : Nat) (cs : List Nat) : Option Nat :=
  if cs.isEmpty then none else cs.foldl (pushDigit base) (some 0)

/-- A literal, `0x` and hexadecimal digits or decimal, with at most `maxHex` hexadecimal digits (R63). `.op <n>` takes the
same forms (DESIGN CHOICE, log entry 19). -/
def literal (maxHex : Nat) (cs : List Nat) : Except AsmError Nat :=
  match cs with
  | 48 :: 120 :: hex =>
    match number 16 hex with
    | some n => if hex.length ≤ maxHex then .ok n else .error .literalOutOfRange
    | none => .error .badOperand
  | dec =>
    match number 10 dec with
    | some n => .ok n
    | none => .error .badOperand

/-- The characters between a double quote at each end. -/
def quoted (cs : List Nat) : Except AsmError (List Nat) :=
  match cs with
  | 34 :: rest =>
    match rest.reverse with
    | 34 :: inside => .ok inside.reverse
    | _ => .error .badOperand
  | _ => .error .badOperand

/-- Split at commas. -/
def splitCommas : List Nat → List (List Nat)
  | [] => [[]]
  | c :: cs =>
    match splitCommas cs with
    | [] => [[c]]
    | part :: parts => if c == 44 then [] :: part :: parts else (c :: part) :: parts

/-- The units of `INIT.BYTES` as text. No operand at all is no units, which is other than 8 (R64). -/
def units (operand : List Nat) : List (List Nat) := if operand.isEmpty then [] else splitCommas operand

/-- The units of `INIT.BYTES` as numbers. R64 gives them no literal form: the model reads each as the literals of R63 are
read, decimal or `0x` and hexadecimal digits, with blanks allowed around it, and reports the first that is malformed
(DESIGN CHOICE, log entry 19). -/
def literals : List (List Nat) → Except AsmError (List Nat)
  | [] => .ok []
  | part :: parts =>
    match literal part.length (trim part), literals parts with
    | .ok n, .ok ns => .ok (n :: ns)
    | .error e, _ => .error e
    | _, .error e => .error e

/-- A line of a command that takes no operand. -/
def bare (l : Line) (operand : List Nat) : Except AsmError (Option Line) :=
  if operand.isEmpty then .ok (some l) else .error .badOperand

/-- A line of a command whose operand was read by `r`. -/
def withOperand {α : Type} (mk : α → Line) (r : Except AsmError α) : Except AsmError (Option Line) :=
  match r with
  | .ok a => .ok (some (mk a))
  | .error e => .error e

/-- One line of a listing; an empty line or a comment gives no command (R63, R64). The mnemonics, in lower case, are nop,
init, next, .op, step, init.text and init.bytes. -/
def parse (line : List Nat) : Except AsmError (Option Line) :=
  let text := trim (stripComment line)
  let mnemonic := (text.takeWhile (fun c => !isBlank c)).map lower
  let operand := trim (text.dropWhile (fun c => !isBlank c))
  if text.isEmpty then .ok none
  else if mnemonic = [110, 111, 112] then bare .nop operand
  else if mnemonic = [105, 110, 105, 116] then withOperand .init (literal 16 operand)
  else if mnemonic = [110, 101, 120, 116] then withOperand .next (literal operand.length operand)
  else if mnemonic = [46, 111, 112] then withOperand .op (literal operand.length operand)
  else if mnemonic = [115, 116, 101, 112] then bare .step operand
  else if mnemonic = [105, 110, 105, 116, 46, 116, 101, 120, 116] then withOperand .initText (quoted operand)
  else if mnemonic = [105, 110, 105, 116, 46, 98, 121, 116, 101, 115] then
    withOperand .initBytes (literals (units operand))
  else .error .unknownMnemonic

/-- A line of text to the port fields that issue its command. -/
def assemble (countWidth : Nat) (line : List Nat) : Except AsmError (Option CommandPort) :=
  match parse line with
  | .ok none => .ok none
  | .ok (some l) => (assembleLine countWidth l).map some
  | .error e => .error e

/-- A listing, one command per line, to the port fields of its commands in order; a line in error
gives no command (R63), and the model then gives none for the listing but its first error (DESIGN CHOICE, log entry 19). -/
def assembleListing (countWidth : Nat) : List (List Nat) → Except AsmError (List CommandPort)
  | [] => .ok []
  | line :: lines =>
    match assemble countWidth line, assembleListing countWidth lines with
    | .ok none, rest => rest
    | .ok (some p), .ok ps => .ok (p :: ps)
    | .ok (some _), .error e => .error e
    | .error e, _ => .error e

end Sys2Proof.Assembler
end

