-- ==== Sys2Proof/Machine/Events.lean ====
section
/-! DEFINITION. What happens in the next step, said of the state before it: which inputs it samples, whether it resets,
which command it accepts and at which level. The whole-machine claims speak in these terms. -/

namespace Sys2Proof.Machine

/-- The input ports that the next step samples, where it is a tick; none where it runs a whole command. -/
def inputsNow (s : State) : Option Inputs :=
  match s.moves with
  | .tick p :: _ => some p
  | .command c :: _ => if s.phase = .idle then none else some (waitingInputs c)
  | [] => some quietInputs

/-- The next step is a tick with rst = 1 (70_reset_and_hazards.md R108). -/
def resetNow (s : State) : Bool :=
  match inputsNow s with
  | some p => p.rst
  | none => false

/-- The next step is a tick with ks_ready = 1 and rst = 0. -/
def readyNow (s : State) : Bool :=
  match inputsNow s with
  | some p => p.ksReady && !p.rst
  | none => false

/-- The command that the next step runs as one atomic step (00_scope.md R16). -/
def transactedNow (s : State) : Option Instr := (fetch s).map Prod.fst

/-- The command whose acceptance step the next tick performs (30_encoding.md R57). -/
def tickAcceptedNow (s : State) : Option Instr :=
  match inputsNow s with
  | some p =>
    if p.rst = false ∧ p.cmdValid = true ∧ s.phase = .idle then some (decodePort s.countWidth p.cmd) else none
  | none => none

/-- The command that the next step accepts, at either level. -/
def acceptedNow (s : State) : Option Instr := (transactedNow s).or (tickAcceptedNow s)

/-- The code that accepting a command writes into ERR (10_state.md R26; 60_exceptions.md R91). -/
def acceptanceCode (initialized : Bool) (i : Instr) : ErrCode :=
  match i with
  | .nop => errNone
  | .init _ => errNone
  | .next _ => if initialized then errNone else errNotInitialized
  | .reserved3 | .reserved4 | .reserved5 | .reserved6 | .reserved7 | .reserved8 | .reserved9
  | .reservedA | .reservedB | .reservedC | .reservedD | .reservedE | .reservedF => errIllegalCommand

end Sys2Proof.Machine
end

