-- ==== Sys2Proof/Machine/Instances.lean ====
section
/-! DEFINITION. Several engines: independent copies, each with its own state, and nothing shared (10_state.md R23;
60_exceptions.md R104). Which engine steps next is free: any order of `stepAt` is a run of the engines together. -/

namespace Sys2Proof.Machine

/-- Engine k of a bank takes one step, and the others keep their states; none where there is no engine k or the step
stops. -/
def stepAt (k : Nat) (bank : List State) : Option (List State) :=
  match bank[k]? with
  | some s =>
    match step s with
    | .next t => some (bank.set k t)
    | .fault _ => none
    | .refused _ => none
  | none => none

end Sys2Proof.Machine
end

