-- ==== Sys2Proof/Machine/Outputs.lean ====
section
/-! DEFINITION. The output ports, all read-only functions of the state (10_state.md R33; 20_memory.md R48). -/

namespace Sys2Proof.Machine

/-- The nine output ports (30_encoding.md R56). -/
structure Outputs where
  /-- `cmd_ready`. -/
  cmdReady : Bool
  /-- `busy`. -/
  busy : Bool
  /-- `initialized`. -/
  initialized : Bool
  /-- `err_code`. -/
  errCode : ErrCode
  /-- `ks_valid`. -/
  ksValid : Bool
  /-- `ks_bit`. -/
  ksBit : Bool
  /-- `r1_q`. -/
  r1q : Reg1
  /-- `r2_q`. -/
  r2q : Reg2
  /-- `r3_q`. -/
  r3q : Reg3
  deriving DecidableEq, Repr

/-- `ks_bit`: OUTBIT when `ks_valid`, else 0 (R33; log entry 12). -/
def ksBit (s : State) : Bool := ksValid s && outBit s.regs

/-- What the ports show in state s; `cmd_ready` also reads the `rst` input of the tick (R33). -/
def outputs (rst : Bool) (s : State) : Outputs :=
  { cmdReady := cmdReady rst s
    busy := busy s
    initialized := s.initialized
    errCode := s.err
    ksValid := ksValid s
    ksBit := ksBit s
    r1q := s.regs.r1
    r2q := s.regs.r2
    r3q := s.regs.r3 }

end Sys2Proof.Machine
end

