-- ==== Sys2Proof/Safety.lean ====
section
/-! DEFINITION. What the claims speak of: the block's invariant, the end of a run and its observation (41_commands.md R87),
and runs of whole commands. -/

namespace Sys2Proof.Machine

/-- What the sequencer state and the flags satisfy in each PHASE: the ranges of J (10_state.md R29) and REM (R30),
INITIALIZED 0 from INIT's acceptance to its last warm-up tick (R25, R80) and 1 while NEXT runs (R81), ERR = NONE while a
command is carried out (R26), and no key material in a block that no INIT has initialised (R108). -/
def State.PhaseInv (s : State) : Prop :=
  match s.phase with
  | .idle => s.j = 0#7 ∧ s.rem = 0 ∧ (s.initialized = false → s.regs = zeroRegs ∧ s.key = 0#64)
  | .mix => s.j.toNat ≤ 63 ∧ s.rem = 0 ∧ s.initialized = false ∧ s.err = errNone
  | .warm => s.j.toNat ≤ 99 ∧ s.rem = 0 ∧ s.initialized = false ∧ s.err = errNone
  | .gen => s.j = 0#7 ∧ 1 ≤ s.rem ∧ s.rem < 2 ^ s.countWidth ∧ s.initialized = true ∧ s.err = errNone

/-- The block's invariant: COUNT_WIDTH is legal (00_scope.md R10), ERR is never the reserved code 3 (60_exceptions.md
R91), and each PHASE has its sequencer state. -/
def State.Inv (s : State) : Prop := Config.LegalWidth s.countWidth ∧ s.err ≠ 3#2 ∧ s.PhaseInv

/-- The abstract state S of the transaction level (00_scope.md R16). -/
structure Abstract where
  /-- R1, R2, R3. -/
  regs : Regs
  /-- INITIALIZED. -/
  initialized : Bool
  /-- ERR. -/
  err : ErrCode
  deriving DecidableEq, Repr

/-- The abstract state of a state. -/
def State.abstract (s : State) : Abstract := { regs := s.regs, initialized := s.initialized, err := s.err }

/-- The host still offers a command in this run: a whole command, or a tick with cmd_valid = 1. A reset starts a new run
(R87), so what the host does from its first reset on is no part of this one. -/
def offersInRun : List HostMove → Bool
  | [] => false
  | .command _ :: _ => true
  | .tick p :: rest => !p.rst && (p.cmdValid || offersInRun rest)

/-- A run has ended when PHASE = IDLE after its last accepted command (R87): the block is idle and the host offers no
further command in this run. Ticks that offer nothing may be left, and so may a reset. -/
def State.Ended (s : State) : Prop := s.phase = .idle ∧ offersInRun s.moves = false

/-- Whole commands, one after the other, stopping where one stops. -/
def runCommands : List Instr → State → Host.Outcome State Fault Refusal
  | [], s => .next s
  | i :: is, s =>
    match exec i s with
    | .next t => runCommands is t
    | .fault f => .fault f
    | .refused r => .refused r

/-- The observation of a run (R87). -/
structure Observation where
  /-- For each command, ERR after its acceptance and the bits it emitted. -/
  commands : List (ErrCode × List Bool)
  /-- The final abstract state S. -/
  final : Abstract
  deriving DecidableEq, Repr

/-- An observation with one command more, ahead of the others. -/
def Observation.cons (err : ErrCode) (bits : List Bool) (o : Observation) : Observation :=
  { o with commands := (err, bits) :: o.commands }

/-- The observation of a run of whole commands from an idle state (R87, at the transaction level). A command that stopped
would end it; none does. Log entry 24 has what it gives from a busy state. -/
def observe : List Instr → State → Observation
  | [], s => { commands := [], final := s.abstract }
  | i :: is, s =>
    match exec i s with
    | .next t => (observe is t).cons t.err (t.sent.drop s.sent.length)
    | .fault _ => { commands := [], final := s.abstract }
    | .refused _ => { commands := [], final := s.abstract }

/-- A run starts at reset (R87): the observation of these commands on a block of this COUNT_WIDTH. -/
def observeRun (countWidth : Nat) (is : List Instr) : Observation :=
  observe is { State.reset with countWidth := countWidth }

/-- The observation of the rest of a run of ticks (R87, at the tick level), with the bits that its ticks transfer before the
next acceptance: they belong to the command already in progress. Ticks that do not end in PHASE = IDLE have none, because
the run has not ended. Ticks with a reset among them have none: a reset starts a new run, and R87 does not say what is shown
across one (DESIGN CHOICE, log entry 24). -/
def watch : List Inputs → State → Option (List Bool × Observation)
  | [], s => if s.phase = .idle then some ([], { commands := [], final := s.abstract }) else none
  | p :: ps, s =>
    if p.rst then none
    else (watch ps (tick p s)).map fun later =>
      if p.cmdValid = true ∧ s.phase = .idle then ([], later.2.cons (tick p s).err later.1)
      else ((tick p s).sent.drop s.sent.length ++ later.1, later.2)

/-- The observation of a run of ticks (R87). It is a run's only if it starts in PHASE = IDLE, as R86 has it; ticks that start
inside a command have none (log entry 24). -/
def observeTicks (ps : List Inputs) (s : State) : Option Observation :=
  if s.phase = .idle then (watch ps s).map Prod.snd else none

end Sys2Proof.Machine
end

