-- ==== Sys2Proof/Certificates/Slice0/Obligations.lean ====
section
/-! DEFINITION. The statements for the provers, drawn from the numbered rules of spec/. -/

open Sys2Proof Sys2Proof.Machine

/-! ### Reset -/

/-- R36: the value of every piece of the block's state after reset. -/
def Obligations.ResetValues : Prop :=
  State.reset.regs.r1 = 0x00000#19 ∧ State.reset.regs.r2 = 0x000000#22 ∧ State.reset.regs.r3 = 0x000000#23 ∧
  State.reset.initialized = false ∧ State.reset.err = 0#2 ∧ State.reset.phase.code = 0b00#2 ∧
  State.reset.j = 0#7 ∧ State.reset.rem = 0 ∧ State.reset.key = 0#64

/-- R108: on a tick with rst = 1, from any state at all, the block's state becomes the reset state; `cmd_ready` is 0, no
command is accepted and no bit is transferred. -/
def Obligations.ResetTickRestoresResetState : Prop :=
  ∀ (s : State) (p : Inputs) (rest : List HostMove), s.moves = .tick p :: rest → p.rst = true →
    step s = .next { State.reset with countWidth := s.countWidth, moves := rest, sent := s.sent } ∧
    cmdReady p.rst s = false ∧ acceptedNow s = none

/-- R109: a reset in the middle of a command abandons it. The bits already transferred stay transferred; afterwards no
run of commands without an INIT emits a bit or sets INITIALIZED, and a new INIT lets NEXT succeed. -/
def Obligations.ResetAbandonsCommandInProgress : Prop :=
  ∀ (s : State) (p : Inputs) (rest : List HostMove), s.phase ≠ .idle → s.moves = .tick p :: rest → p.rst = true →
    ∃ t, step s = .next t ∧ t = { State.reset with countWidth := s.countWidth, moves := rest, sent := s.sent } ∧
      ∀ cs : List Instr, (∀ k, Instr.init k ∉ cs) →
        (∃ u, runCommands cs t = .next u ∧ u.initialized = false ∧ u.regs = zeroRegs ∧ u.sent = s.sent ∧
          ∀ c, ∃ v, exec (.next c) u = .next v ∧ v.err = errNotInitialized) ∧
        ∀ k c, ∃ v, runCommands (cs ++ [.init k, .next c]) t = .next v ∧ v.err = errNone

/-! ### The commands -/

/-- R79: NOP writes ERR <- NONE and nothing else, at both levels, before an INIT and after one. -/
def Obligations.NopOnlyClearsErr : Prop :=
  ∀ s : State, s.phase = .idle →
    exec .nop s = .next { s with err := errNone } ∧
    ∀ (p : Inputs) (rest : List HostMove), s.moves = .tick p :: rest → p.rst = false → p.cmdValid = true →
      decodePort s.countWidth p.cmd = .nop → step s = .next { s with err := errNone, moves := rest }

/-- R80, transaction level: along any trajectory of 64 mixing ticks with the key bits K[63 - j] from zero registers, then
100 warm-up ticks, INIT K leaves the last registers, INITIALIZED = 1, ERR = NONE and the operand in KEY; nothing else
changes, and no bit is emitted. That KEY holds K is R31's (log entry 8). -/
def Obligations.InitMixesKeyThenWarmsUp : Prop :=
  ∀ (s : State) (k : Key) (m w : Nat → Regs), s.phase = .idle →
    m 0 = { r1 := 0#19, r2 := 0#22, r3 := 0#23 } →
    (∀ j, j < 64 → m (j + 1) = mixTick (k.getLsbD (63 - j)) (m j)) →
    w 0 = m 64 → (∀ i, i < 100 → w (i + 1) = warmTick (w i)) →
    exec (.init k) s = .next { s with err := errNone, regs := w 100, initialized := true, key := k }

/-- R80, tick level: INIT's acceptance step. -/
def Obligations.InitAcceptanceStep : Prop :=
  ∀ (s : State) (p : Inputs) (rest : List HostMove) (k : Key), s.phase = .idle → s.moves = .tick p :: rest →
    p.rst = false → p.cmdValid = true → decodePort s.countWidth p.cmd = .init k →
    step s = .next { s with
      err := errNone, initialized := false, regs := { r1 := 0#19, r2 := 0#22, r3 := 0#23 }
      key := k, j := 0#7, phase := .mix, moves := rest }

/-- R81, transaction level: from an initialised block NEXT C emits, along any trajectory of majority-clocking ticks, the
C bits taken before each tick, leaves the registers after C ticks, and writes ERR <- NONE; nothing else changes. -/
def Obligations.NextEmitsKeystream : Prop :=
  ∀ (s : State) (c : Nat) (g : Nat → Regs), s.phase = .idle → s.initialized = true → g 0 = s.regs →
    (∀ i, i < c → g (i + 1) = clockTick (g i)) →
    exec (.next c) s = .next { s with
      err := errNone, regs := g c, sent := s.sent ++ (List.range c).map fun i => outBit (g i) }

/-- R81: NEXT with INITIALIZED = 0 writes ERR <- NOT_INITIALIZED for every count, 0 included, and changes nothing
else; NEXT 0 on an initialised block writes ERR <- NONE and changes nothing else. -/
def Obligations.NextWithoutKeyOrBits : Prop :=
  ∀ s : State, s.phase = .idle →
    (s.initialized = false → ∀ c, exec (.next c) s = .next { s with err := errNotInitialized }) ∧
    (s.initialized = true → exec (.next 0) s = .next { s with err := errNone })

/-- R81, tick level: NEXT's acceptance step, in its three cases. -/
def Obligations.NextAcceptanceStep : Prop :=
  ∀ (s : State) (p : Inputs) (rest : List HostMove) (c : Nat), s.phase = .idle → s.moves = .tick p :: rest →
    p.rst = false → p.cmdValid = true → decodePort s.countWidth p.cmd = .next c →
    step s = .next (
      if s.initialized = false then { s with err := errNotInitialized, moves := rest }
      else if c = 0 then { s with err := errNone, moves := rest }
      else { s with err := errNone, rem := c, phase := .gen, moves := rest })

/-- R82, R93: each of the thirteen reserved opcodes writes ERR <- ILLEGAL_COMMAND and nothing else, at both levels,
whatever INITIALIZED is. -/
def Obligations.ReservedRaisesIllegalCommand : Prop :=
  ∀ i ∈ [Instr.reserved3, .reserved4, .reserved5, .reserved6, .reserved7, .reserved8, .reserved9, .reservedA,
      .reservedB, .reservedC, .reservedD, .reservedE, .reservedF],
    ∀ s : State, s.phase = .idle →
      exec i s = .next { s with err := errIllegalCommand } ∧
      ∀ (p : Inputs) (rest : List HostMove), s.moves = .tick p :: rest → p.rst = false → p.cmdValid = true →
        decodePort s.countWidth p.cmd = i → step s = .next { s with err := errIllegalCommand, moves := rest }

/-- Every command completes, from every idle state and for every operand, and leaves alone the sequencer (PHASE = IDLE, J,
REM), the width, the host's moves and the bits already sent; KEY changes only by INIT and registers only by INIT and
NEXT. -/
def Obligations.EveryCommandCompletesWithItsFrame : Prop :=
  ∀ (i : Instr) (s : State), s.phase = .idle → ∃ t, exec i s = .next t ∧
    t.phase = .idle ∧ t.j = s.j ∧ t.rem = s.rem ∧ t.countWidth = s.countWidth ∧ t.moves = s.moves ∧
    s.sent <+: t.sent ∧ t.err = acceptanceCode s.initialized i ∧
    ((∀ k, i ≠ .init k) → t.key = s.key ∧ t.initialized = s.initialized) ∧
    ((∀ k, i ≠ .init k) → (∀ c, i ≠ .next c) → t.regs = s.regs ∧ t.sent = s.sent)

/-- A command offered to a busy block has no effect: exec leaves the state as it is. The model's reading of R57 (log
entry 7). -/
def Obligations.BusyBlockAcceptsNothing : Prop :=
  ∀ (i : Instr) (s : State), s.phase ≠ .idle → exec i s = .next s

/-- R96: at either level, a command that reports an error leaves exactly the state before it, with ERR written (and the
host's move used up). -/
def Obligations.ErrorsArePrecise : Prop :=
  ∀ (s t : State) (i : Instr), acceptedNow s = some i → step s = .next t → t.err ≠ errNone →
    t = { s with err := t.err, moves := s.moves.tail } ∧ t.phase = .idle

/-- R92: along any run of commands from reset, NEXT raises NOT_INITIALIZED exactly when no INIT stands before it; the
command then changes only ERR. -/
def Obligations.NotInitializedExactlyBeforeFirstInit : Prop :=
  ∀ (cs : List Instr) (c : Nat), ∃ t u, runCommands cs State.reset = .next t ∧ exec (.next c) t = .next u ∧
    (u.err = errNotInitialized ↔ ∀ k, Instr.init k ∉ cs) ∧
    (u.err = errNotInitialized → u = { t with err := errNotInitialized })

/-! ### Encoding -/

/-- R59 to R61: decoding the word of a well-formed command gives the command back, for every COUNT_WIDTH and every operand
it admits. -/
def Obligations.DecodeOfEncode : Prop :=
  ∀ (w : Nat) (i : Instr), i.wellFormed w = true → decodeWord w (encode i) = .ok i

/-- R60, R61: every command word decodes, to a well-formed command whose opcode is CW[3:0] and whose operand is the field
its opcode reads, and it belongs to exactly one row of the opcode table. -/
def Obligations.EveryCommandWordDecodes : Prop :=
  ∀ w x : Nat, x < 2 ^ (68 + w) → ∃ i, decodeWord w x = .ok i ∧ i.wellFormed w = true ∧
    i.opcode.toNat = x % 2 ^ 4 ∧
    (∀ k, i = .init k → k.toNat = x / 2 ^ 4 % 2 ^ 64) ∧ (∀ c, i = .next c → c = x / 2 ^ 68) ∧
    opcodeTable.filter (fun r => x &&& r.mask == r.pattern) = [⟨0xF, i.opcode.toNat⟩]

/-- R58: a field that the opcode does not read changes neither the command decoded nor the step taken on it. -/
def Obligations.UnreadFieldsDoNotMatter : Prop :=
  ∀ (s : State) (p q : CommandPort) (rest : List HostMove), p.op = q.op →
    (p.op = 1#4 → p.key = q.key) → (p.op = 2#4 → p.count = q.count) →
    decodePort s.countWidth p = decodePort s.countWidth q ∧
    (s.phase = .idle → step { s with moves := .command p :: rest } = step { s with moves := .command q :: rest })

/-- R59: words of the listings P1 to P5 for COUNT_WIDTH = 8, read bit by bit from CW = {count, key, op}. -/
def Obligations.ListingWordsDecode : Prop :=
  decodeWord 8 0x0800000000000000002 = .ok (.next 8) ∧ decodeWord 8 0x0000000000000000000 = .ok .nop ∧
  decodeWord 8 0x0000000000000000005 = .ok .reserved5 ∧ decodeWord 8 0x000123456789ABCDEF1 = .ok (.init 0x0123456789ABCDEF#64) ∧
  decodeWord 8 0x0041424344454647481 = .ok (.init 0x4142434445464748#64) ∧
  decodeWord 8 0x1000000000000000002 = .ok (.next 16) ∧ decodeWord 8 0xFF0000000000000000F = .ok .reservedF

/-! ### The step -/

/-- A step runs the command that the decoder reads, as one atomic step, when the host's next move is that command and the
block is idle; the step adds only that the move is used up. While the block is busy the command stays the next move and the
step is one tick of the sequencer, taking bits as they come. A host tick is that tick; a host with no move left is a tick
with every input 0. The model's choices, not the spec's: one step is one host move (log entry 1), a waiting host keeps its
command and takes bits (the second clause, log entry 13), and a host with no move left drives every input 0 (the fourth
clause, log entry 3). -/
def Obligations.StepRunsTheDecodedCommand : Prop :=
  (∀ (s : State) (c : CommandPort) (rest : List HostMove), s.moves = .command c :: rest → s.phase = .idle →
    step s = exec (decodePort s.countWidth c) { s with moves := rest }) ∧
  (∀ (s : State) (c : CommandPort) (rest : List HostMove), s.moves = .command c :: rest → s.phase ≠ .idle →
    step s = .next (sequencerTick (waitingInputs c) s) ∧ (sequencerTick (waitingInputs c) s).moves = s.moves) ∧
  (∀ (s : State) (p : Inputs) (rest : List HostMove), s.moves = .tick p :: rest → p.rst = false →
    step s = .next (sequencerTick p { s with moves := rest })) ∧
  (∀ s : State, s.moves = [] → step s = .next (sequencerTick quietInputs s))

/-- The word placed by `withFetchWord` is the command that the very next step runs, from every state. -/
def Obligations.PlacedWordRunsNext : Prop :=
  ∀ (s : State) (n x : Nat) (i : Instr), s.countWidth = Config.countWidth → decodeTableWord n x = some i →
    step (s.withFetchWord n x) = exec i { s with phase := .idle, j := 0#7, rem := 0 }

/-- No step stops the machine: every state has a next one (the block reports errors in ERR, R91, R96; log entry 9). -/
def Obligations.NoStepStops : Prop := ∀ s : State, ∃ t, step s = .next t

/-! ### The datapath -/

/-- R65: each feedback bit is the XOR of its register's taps; it is 0 for the all-zero and the all-ones register; the rule's
examples. -/
def Obligations.FeedbackIsXorOfTaps : Prop :=
  (∀ r : Reg1, fb1 r = (r.getLsbD 13 ^^ r.getLsbD 16 ^^ r.getLsbD 17 ^^ r.getLsbD 18)) ∧
  (∀ r : Reg2, fb2 r = (r.getLsbD 20 ^^ r.getLsbD 21)) ∧
  (∀ r : Reg3, fb3 r = (r.getLsbD 7 ^^ r.getLsbD 20 ^^ r.getLsbD 21 ^^ r.getLsbD 22)) ∧
  fb1 0#19 = false ∧ fb2 0#22 = false ∧ fb3 0#23 = false ∧
  fb1 0x7FFFF#19 = false ∧ fb2 0x3FFFFF#22 = false ∧ fb3 0x7FFFFF#23 = false ∧
  fb1 0x40000#19 = true ∧ fb1 0x02000#19 = true ∧ fb1 0x00100#19 = false ∧ fb2 0x300000#22 = false ∧
  fb3 0x000080#23 = true

/-- R66: shifting b into a register of n bits puts b at bit n-1 and moves every other bit one place toward the output end,
dropping bit 0; as unsigned numbers it is b·2^(n-1) + r/2. -/
def Obligations.ShiftInDropsBitZero : Prop :=
  ∀ (n : Nat) (r : BitVec n) (b : Bool), 0 < n →
    (∀ i, i < n → (shiftIn r b).getLsbD i = if i = n - 1 then b else r.getLsbD (i + 1)) ∧
    (shiftIn r b).toNat = b.toNat * 2 ^ (n - 1) + r.toNat / 2

/-- R67: advancing shifts in the register's own feedback, computed before the shift; the corner cases and the rule's
examples. -/
def Obligations.AdvanceShiftsInOwnFeedback : Prop :=
  (∀ r : Reg1, (adv1 r).toNat = (fb1 r).toNat * 2 ^ 18 + r.toNat / 2) ∧
  (∀ r : Reg2, (adv2 r).toNat = (fb2 r).toNat * 2 ^ 21 + r.toNat / 2) ∧
  (∀ r : Reg3, (adv3 r).toNat = (fb3 r).toNat * 2 ^ 22 + r.toNat / 2) ∧
  adv1 0#19 = 0#19 ∧ adv2 0#22 = 0#22 ∧ adv3 0#23 = 0#23 ∧
  adv1 0x7FFFF#19 = 0x3FFFF#19 ∧ adv2 0x3FFFFF#22 = 0x1FFFFF#22 ∧ adv3 0x7FFFFF#23 = 0x3FFFFF#23 ∧
  adv1 0x02000#19 = 0x41000#19 ∧ adv2 0x100000#22 = 0x280000#22 ∧ adv3 0x000080#23 = 0x400040#23

/-- R68: the majority bit of the three clocking bits R1[8], R2[10] and R3[10] is 1 exactly when at least two of them are 1, and
at least two of them equal it. -/
def Obligations.MajorityIsTwoOfThree : Prop :=
  ∀ r : Regs,
    (maj (clk1 r) (clk2 r) (clk3 r) = true ↔
      2 ≤ [r.r1.getLsbD 8, r.r2.getLsbD 10, r.r3.getLsbD 10].count true) ∧
    2 ≤ [r.r1.getLsbD 8, r.r2.getLsbD 10, r.r3.getLsbD 10].count (maj (clk1 r) (clk2 r) (clk3 r))

/-- R69: a majority-clocking tick advances exactly the first register, in the order R1, R2, R3, whose clocking bit equals
the majority; the select table's eight rows. -/
def Obligations.FixedPrioritySelect : Prop :=
  ∀ r : Regs,
    (r.r1.getLsbD 8 = maj (r.r1.getLsbD 8) (r.r2.getLsbD 10) (r.r3.getLsbD 10) →
      clockTick r = { r with r1 := adv1 r.r1 }) ∧
    (r.r1.getLsbD 8 ≠ maj (r.r1.getLsbD 8) (r.r2.getLsbD 10) (r.r3.getLsbD 10) →
      r.r2.getLsbD 10 = maj (r.r1.getLsbD 8) (r.r2.getLsbD 10) (r.r3.getLsbD 10) →
      clockTick r = { r with r2 := adv2 r.r2 }) ∧
    clockTick r = (match r.r1.getLsbD 8, r.r2.getLsbD 10, r.r3.getLsbD 10 with
      | false, false, false => { r with r1 := adv1 r.r1 }
      | false, false, true => { r with r1 := adv1 r.r1 }
      | false, true, false => { r with r1 := adv1 r.r1 }
      | false, true, true => { r with r2 := adv2 r.r2 }
      | true, false, false => { r with r2 := adv2 r.r2 }
      | true, false, true => { r with r1 := adv1 r.r1 }
      | true, true, false => { r with r1 := adv1 r.r1 }
      | true, true, true => { r with r1 := adv1 r.r1 })

/-- R71: a majority-clocking tick advances R1 exactly when not (c2 = c3 and c1 ≠ c2), and otherwise R2. -/
def Obligations.MinorityBitPicksR2 : Prop :=
  ∀ r : Regs, ∀ c1 c2 c3 : Bool, c1 = r.r1.getLsbD 8 → c2 = r.r2.getLsbD 10 → c3 = r.r3.getLsbD 10 →
    (¬(c2 = c3 ∧ c1 ≠ c2) → clockTick r = { r with r1 := adv1 r.r1 }) ∧
    ((c2 = c3 ∧ c1 ≠ c2) → clockTick r = { r with r2 := adv2 r.r2 })

/-- R70: no majority-clocking tick advances R3, so R3 changes in no step but a reset, an accepted INIT or a mixing tick; R3
after INIT is R3 after its 64 mixing ticks. -/
def Obligations.R3NeverAdvancesAfterMixing : Prop :=
  (∀ r : Regs, (clockTick r).r3 = r.r3) ∧
  (∀ s t : State, step s = .next t → t.regs.r3 ≠ s.regs.r3 →
    resetNow s = true ∨ s.phase = .mix ∨ ∃ k, acceptedNow s = some (.init k)) ∧
  (∀ (s t : State) (k : Key), s.phase = .idle → exec (.init k) s = .next t →
    t.regs.r3 = (mixSequence (keySequence k) zeroRegs).r3)

/-- R78: the all-zero registers are a fixed point of every micro-operation with key bit 0, so INIT 0 leaves them zero and
every bit after it is 0. -/
def Obligations.ZeroKeyGivesZeroKeystream : Prop :=
  mixTick false zeroRegs = zeroRegs ∧ warmTick zeroRegs = zeroRegs ∧ clockTick zeroRegs = zeroRegs ∧
  ∀ (s : State) (c : Nat), s.phase = .idle → ∃ t u, exec (.init 0#64) s = .next t ∧ t.regs = zeroRegs ∧
    exec (.next c) t = .next u ∧ u.regs = zeroRegs ∧ u.sent = s.sent ++ List.replicate c false

/-! ### The sequencer -/

/-- R73, R77: a tick in PHASE = MIX. All three registers shift in the key bit K[63 - J] XOR their own feedback, whatever the
command port and ks_ready show; J counts to 63 and then PHASE becomes WARM. -/
def Obligations.MixPhaseTick : Prop :=
  ∀ (s : State) (p : Inputs) (rest : List HostMove) (b : Bool), s.phase = .mix → s.j.toNat ≤ 63 →
    s.moves = .tick p :: rest → p.rst = false → b = s.key.getLsbD (63 - s.j.toNat) →
    step s = .next { s with
      regs := { r1 := shiftIn s.regs.r1 (b ^^ fb1 s.regs.r1), r2 := shiftIn s.regs.r2 (b ^^ fb2 s.regs.r2),
                r3 := shiftIn s.regs.r3 (b ^^ fb3 s.regs.r3) }
      phase := if s.j.toNat = 63 then .warm else .mix
      j := if s.j.toNat = 63 then 0#7 else s.j + 1#7
      moves := rest }

/-- R74, R77: a tick in PHASE = WARM is one majority-clocking tick with no bit emitted; the hundredth ends INIT. J counts up;
what J + 1 is at J = 127, which no run reaches, the spec does not say (log entry 23), so that one value is left open here. -/
def Obligations.WarmPhaseTick : Prop :=
  ∀ (s : State) (p : Inputs) (rest : List HostMove), s.phase = .warm → s.moves = .tick p :: rest → p.rst = false →
    ksValid s = false ∧ ∃ j : TickCount, (s.j = 99#7 → j = 0#7) ∧
    (s.j ≠ 99#7 → s.j ≠ 127#7 → j.toNat = s.j.toNat + 1) ∧
    step s = .next { s with
      regs := clockTick s.regs
      phase := if s.j = 99#7 then .idle else .warm
      j := j
      initialized := if s.j = 99#7 then true else s.initialized
      moves := rest }

/-- R75, R77: a tick in PHASE = GEN with ks_ready = 1 transfers the bit on `ks_bit`, taken before the tick's clocking, and
counts REM down; the last transfer returns to IDLE. -/
def Obligations.KeystreamTransferTick : Prop :=
  ∀ (s : State) (p : Inputs) (rest : List HostMove), s.phase = .gen → 1 ≤ s.rem → s.rem < 2 ^ s.countWidth →
    s.moves = .tick p :: rest → p.rst = false → p.ksReady = true →
    ksBit s = (s.regs.r1.getLsbD 0 ^^ s.regs.r2.getLsbD 0 ^^ s.regs.r3.getLsbD 0) ∧
    step s = .next { s with
      regs := clockTick s.regs
      sent := s.sent ++ [ksBit s]
      phase := if s.rem = 1 then .idle else .gen
      rem := s.rem - 1
      moves := rest }

/-- R76: a tick in PHASE = GEN with ks_ready = 0 changes no state; `ks_valid` stays 1 and `ks_bit` keeps its value. -/
def Obligations.HoldTickChangesNothing : Prop :=
  ∀ (s : State) (p : Inputs) (rest : List HostMove), s.phase = .gen → s.moves = .tick p :: rest →
    p.rst = false → p.ksReady = false →
    ∃ t, step s = .next t ∧ t = { s with moves := rest } ∧ ksValid t = true ∧ ksBit t = ksBit s

/-- R106: in PHASE = IDLE with no command offered, every piece of state holds its value, for as many steps as one likes. -/
def Obligations.IdleHoldsItsState : Prop :=
  (∀ (s : State) (p : Inputs) (rest : List HostMove), s.phase = .idle → s.moves = .tick p :: rest → p.rst = false →
    p.cmdValid = false → step s = .next { s with moves := rest }) ∧
  (∀ (s : State) (n : Nat), s.phase = .idle → s.moves = [] → Sys2Proof.core.run n s = .next s)

/-- R57, R114: while the block is busy, what the host shows on the command port changes nothing, in any tick. -/
def Obligations.CommandPortIgnoredWhileBusy : Prop :=
  ∀ (s : State) (p q : Inputs) (rest : List HostMove), s.phase ≠ .idle → p.rst = q.rst → p.ksReady = q.ksReady →
    step { s with moves := .tick p :: rest } = step { s with moves := .tick q :: rest }

/-- R33, its table: every output port, as a function of the state and, for `cmd_ready`, of rst. The clause that `ks_bit` is 0
outside GEN is the table's value read as log entry 12 (DEDUCED) says; item I9 asks that nothing depend on it, and no other
statement does. -/
def Obligations.OutputPortValues : Prop :=
  ∀ (rst : Bool) (s : State),
    (outputs rst s).cmdReady = (decide (s.phase = .idle) && !rst) ∧ (outputs rst s).busy = decide (s.phase ≠ .idle) ∧
    (outputs rst s).initialized = s.initialized ∧ (outputs rst s).errCode = s.err ∧
    (outputs rst s).ksValid = decide (s.phase = .gen) ∧
    (s.phase = .gen → (outputs rst s).ksBit =
      (s.regs.r1.getLsbD 0 ^^ s.regs.r2.getLsbD 0 ^^ s.regs.r3.getLsbD 0)) ∧
    (s.phase ≠ .gen → (outputs rst s).ksBit = false) ∧
    (outputs rst s).r1q = s.regs.r1 ∧ (outputs rst s).r2q = s.regs.r2 ∧ (outputs rst s).r3q = s.regs.r3

/-! ### Whole-machine rules -/

/-- The block's invariant holds at reset. -/
def Obligations.InvariantAtReset : Prop := State.reset.Inv

/-- R25, R26, R28 to R30, R91: every step keeps the block's invariant. -/
def Obligations.EveryStepKeepsTheInvariant : Prop :=
  ∀ s t : State, s.Inv → step s = .next t → t.Inv

/-- R22: only reset, INIT acceptance and the datapath micro-operations write R1, R2 or R3; a NEXT run as one step writes what
its ticks write. -/
def Obligations.OnlyTheseStepsWriteRegisters : Prop :=
  ∀ s t : State, step s = .next t → t.regs ≠ s.regs →
    (resetNow s = true ∧ t.regs = zeroRegs) ∨
    (∃ k, transactedNow s = some (.init k) ∧
      t.regs = clockTicks 100 (mixSequence (keySequence k) zeroRegs)) ∨
    (∃ k, tickAcceptedNow s = some (.init k) ∧ t.regs = zeroRegs) ∨
    (∃ c, transactedNow s = some (.next c) ∧ s.initialized = true ∧ t.regs = clockTicks c s.regs) ∨
    (s.phase = .mix ∧ t.regs = mixTick (keyBit s.key s.j) s.regs) ∨
    (s.phase = .warm ∧ t.regs = warmTick s.regs) ∨
    (s.phase = .gen ∧ readyNow s = true ∧ t.regs = clockTick s.regs)

/-- R25: INITIALIZED becomes 1 only by the last warm-up tick of an INIT (or an INIT run as one step), and 0 only by reset or
INIT acceptance. -/
def Obligations.OnlyTheseStepsWriteInitialized : Prop :=
  ∀ s t : State, step s = .next t →
    (s.initialized = false → t.initialized = true →
      (s.phase = .warm ∧ s.j = 99#7 ∧ t.phase = .idle) ∨ ∃ k, transactedNow s = some (.init k)) ∧
    (s.initialized = true → t.initialized = false →
      resetNow s = true ∨ ∃ k, tickAcceptedNow s = some (.init k))

/-- R26, R91: an accepted command writes ERR, to NONE or to the code of its error; reset writes 0; nothing else writes
ERR. -/
def Obligations.ErrIsWrittenAtAcceptanceOnly : Prop :=
  ∀ s t : State, step s = .next t →
    (∀ i, acceptedNow s = some i → t.err = acceptanceCode s.initialized i) ∧
    (resetNow s = true → t.err = 0#2) ∧
    (acceptedNow s = none → resetNow s = false → t.err = s.err)

/-- R31: KEY is written at INIT acceptance, to the operand, and at reset, to 0, and by no other step. -/
def Obligations.KeyIsWrittenByInitAndReset : Prop :=
  ∀ s t : State, step s = .next t →
    (∀ k, acceptedNow s = some (.init k) → t.key = k) ∧ (resetNow s = true → t.key = 0#64) ∧
    ((∀ k, acceptedNow s ≠ some (.init k)) → resetNow s = false → t.key = s.key)

/-- R31, R37: KEY is hidden. Outside the MIX phase, two states that differ only in KEY show the same outputs, and a step
takes them to states that differ at most in KEY and are again not in MIX, or that are equal. -/
def Obligations.KeyIsHiddenOutsideMix : Prop :=
  ∀ (s : State) (k : Key) (rst : Bool), s.phase ≠ .mix →
    outputs rst { s with key := k } = outputs rst s ∧
    ∃ t, step s = .next t ∧
      (step { s with key := k } = .next t ∨ (t.phase ≠ .mix ∧ step { s with key := k } = .next { t with key := k }))

/-- R42, R48: a step only appends to the bits sent: one bit, the offered one, by a transfer in PHASE = GEN, or the bits of a
NEXT run as one step; every other step sends none. -/
def Obligations.BitsAreSentInOrderByTransfersOnly : Prop :=
  ∀ s t : State, step s = .next t →
    t.sent = s.sent ∨
    (s.phase = .gen ∧ readyNow s = true ∧ t.sent = s.sent ++ [ksBit s]) ∨
    (∃ c, transactedNow s = some (.next c) ∧ s.initialized = true ∧ t.sent = s.sent ++ keystream c s.regs)

/-- R10: COUNT_WIDTH is a parameter and no step writes it. -/
def Obligations.CountWidthNeverChanges : Prop :=
  ∀ s t : State, step s = .next t → t.countWidth = s.countWidth

/-! ### Laws joining the commands, and the two levels -/

/-- R83: NEXT a, then any run of NOP, reserved commands and NEXT 0, then NEXT b, leaves the state that NEXT (a + b) leaves:
the same registers and the same bits, those of a before those of b. -/
def Obligations.NextContinuesTheStream : Prop :=
  ∀ (s : State) (a b : Nat) (cs : List Instr), s.phase = .idle → s.initialized = true →
    (∀ i ∈ cs, i = .nop ∨ i = .next 0 ∨ 3 ≤ i.opcode.toNat) →
    runCommands (.next a :: cs ++ [.next b]) s = runCommands [.next (a + b)] s

/-- R84: INIT K leaves registers and INITIALIZED that depend on K alone, and every later observation is the same whatever the
state before it. -/
def Obligations.InitForgetsTheEarlierState : Prop :=
  ∀ (s u : State) (k : Key), s.phase = .idle → u.phase = .idle →
    ∃ t v, exec (.init k) s = .next t ∧ exec (.init k) u = .next v ∧
      t.abstract = v.abstract ∧ t.initialized = true ∧ ∀ cs, observe cs t = observe cs v

/-- R76: the pattern of holds does not matter. Two runs of ticks from the same GEN state with the same number of ticks on which
the host takes a bit end in the same state, with the same bits sent. -/
def Obligations.HoldsDoNotChangeTheStream : Prop :=
  ∀ (s : State) (ps qs : List Inputs), s.phase = .gen →
    (∀ p ∈ ps, p.rst = false ∧ p.cmdValid = false) → (∀ q ∈ qs, q.rst = false ∧ q.cmdValid = false) →
    ps.countP (·.ksReady) = qs.countP (·.ksReady) → ticks ps s = ticks qs s

/-- R80, R117: after INIT's acceptance, ticks t+1 .. t+64 mix and ticks t+65 .. t+164 warm up, whatever the other inputs;
`busy` falls and INITIALIZED rises with the last of them, and no bit is sent. -/
def Obligations.InitTakes164Ticks : Prop :=
  ∀ (s : State) (k : Key) (ps : List Inputs), (∀ p ∈ ps, p.rst = false) → ps.length ≤ 164 →
    (ticks ps (acceptInit k s)).initialized = decide (ps.length = 164) ∧
    busy (ticks ps (acceptInit k s)) = decide (ps.length < 164) ∧
    (ticks ps (acceptInit k s)).sent = s.sent ∧
    (ps.length < 64 → (ticks ps (acceptInit k s)).phase = .mix ∧
      (ticks ps (acceptInit k s)).j.toNat = ps.length ∧
      (ticks ps (acceptInit k s)).regs = mixSequence ((keySequence k).take ps.length) zeroRegs) ∧
    (64 ≤ ps.length → ps.length < 164 → (ticks ps (acceptInit k s)).phase = .warm ∧
      (ticks ps (acceptInit k s)).j.toNat = ps.length - 64 ∧
      (ticks ps (acceptInit k s)).regs = clockTicks (ps.length - 64) (mixSequence (keySequence k) zeroRegs))

/-- R30, R77: while NEXT C runs, after n < C transfers the block is still in GEN with REM = C - n, and exactly the first n
bits of its keystream are sent, whatever the holds. -/
def Obligations.NextSendsOneBitPerTransfer : Prop :=
  ∀ (s : State) (c : Nat) (ps : List Inputs), s.phase = .idle → s.initialized = true → c < 2 ^ s.countWidth →
    (∀ p ∈ ps, p.rst = false) → ps.countP (·.ksReady) < c →
    (ticks ps (acceptNext c s)).phase = .gen ∧
    (ticks ps (acceptNext c s)).rem = c - ps.countP (·.ksReady) ∧
    (ticks ps (acceptNext c s)).sent = s.sent ++ (keystream c s.regs).take (ps.countP (·.ksReady))

/-- R86, INIT: one acceptance tick and any 164 ticks with rst = 0 reach exactly the state of the one atomic step. The equality
is of the whole state; that it holds of KEY too, which the transaction level omits, rests on log entry 8. -/
def Obligations.InitLevelsAgree : Prop :=
  ∀ (s : State) (k : Key) (p : Inputs) (ps : List Inputs) (rest : List HostMove), s.phase = .idle → s.j = 0#7 →
    s.moves = .tick p :: ps.map .tick ++ rest → p.rst = false → p.cmdValid = true →
    decodePort s.countWidth p.cmd = .init k → ps.length = 164 → (∀ q ∈ ps, q.rst = false) →
    Sys2Proof.core.run 165 s = exec (.init k) { s with moves := rest }

/-- R86, NEXT C with C ≥ 1: one acceptance tick and any ticks with rst = 0 that end with the C-th transfer reach exactly the
state of the one atomic step. -/
def Obligations.NextLevelsAgree : Prop :=
  ∀ (s : State) (c : Nat) (p : Inputs) (ps : List Inputs) (q : Inputs) (rest : List HostMove), s.phase = .idle →
    s.rem = 0 → s.initialized = true → s.moves = .tick p :: (ps ++ [q]).map .tick ++ rest →
    p.rst = false → p.cmdValid = true → decodePort s.countWidth p.cmd = .next c →
    (∀ x ∈ ps ++ [q], x.rst = false) → q.ksReady = true → (ps ++ [q]).countP (·.ksReady) = c →
    Sys2Proof.core.run (ps.length + 2) s = exec (.next c) { s with moves := rest }

/-- R86, R117: NOP, a reserved opcode, a NEXT that fails and NEXT 0 take one tick, which is the one atomic step. -/
def Obligations.OneTickCommandsAgree : Prop :=
  ∀ (s : State) (p : Inputs) (rest : List HostMove) (i : Instr), s.phase = .idle → s.moves = .tick p :: rest →
    p.rst = false → p.cmdValid = true → decodePort s.countWidth p.cmd = i → (∀ k, i ≠ .init k) →
    (∀ c, i = .next c → c = 0 ∨ s.initialized = false) →
    step s = exec i { s with moves := rest }

/-- R85, R86: any run of ticks with rst = 0 that starts and ends in PHASE = IDLE, whatever the host offers and whenever it takes
bits, ends in exactly the state that the accepted commands give when each is run as one atomic step. So the state and the bits
are a function of the accepted commands alone. The equality is of the whole state; that it holds of KEY too, which is no part
of the abstract state, rests on log entry 8. -/
def Obligations.TickRunsAreCommandRuns : Prop :=
  ∀ (s : State) (ps : List Inputs), s.Inv → s.phase = .idle → (∀ p ∈ ps, p.rst = false) →
    (ticks ps s).phase = .idle → runCommands (acceptedAlong ps s) s = .next (ticks ps s)

/-- R87: a run of ticks that ends shows what its accepted commands show as atomic steps: for each, ERR after its acceptance
and the bits it emitted, whatever ticks they took, and then the same final abstract state. Once a run has ended, no step
accepts a command, changes the abstract state or sends a bit until a reset starts a new run, and the run stays ended. -/
def Obligations.EndedRunShowsItsCommands : Prop :=
  (∀ (s : State) (ps : List Inputs), s.Inv → s.phase = .idle → (∀ p ∈ ps, p.rst = false) →
    (ticks ps s).phase = .idle → observeTicks ps s = some (observe (acceptedAlong ps s) s)) ∧
  (∀ s t : State, s.Ended → step s = .next t →
    acceptedNow s = none ∧ (resetNow s = false → t.Ended ∧ t.abstract = s.abstract ∧ t.sent = s.sent))

/-! ### Several engines, and the host's side -/

/-- R23, R104: engines share no state. A step of one leaves every other as it was, and steps of two engines commute. -/
def Obligations.EnginesAreIndependent : Prop :=
  (∀ (k m : Nat) (bank bank' : List State), stepAt k bank = some bank' → m ≠ k → bank'[m]? = bank[m]?) ∧
  (∀ (k m : Nat) (bank : List State), k ≠ m →
    (stepAt k bank).bind (stepAt m) = (stepAt m bank).bind (stepAt k))

/-- R40, R41: an 8-byte key buffer is mixed byte 0 first, each byte most significant bit first; a buffer of any other length
is refused with InvalidKeyLength. -/
def Obligations.KeyBufferBitOrder : Prop :=
  (∀ bs : List (BitVec 8), bs.length = 8 → ∃ k, Codec.keyOfBytes bs = .ok k ∧
    keySequence k = bs.flatMap fun b => (List.range 8).map fun i => b.getLsbD (7 - i)) ∧
  (∀ bs : List (BitVec 8), bs.length ≠ 8 → Codec.keyOfBytes bs = .error .invalidKeyLength)

/-- R43: a keystream of 8·B bits packs into B bytes, MSB first. -/
def Obligations.KeystreamPacksMsbFirst : Prop :=
  ∀ (n : Nat) (bits : List Bool), bits.length = 8 * n → ∃ bytes, Codec.packBytes bits = some bytes ∧
    bytes.length = n ∧ bits = bytes.flatMap fun b => (List.range 8).map fun i => b.getLsbD (7 - i)

/-- R84, R43 (the source's self-inverse scenario for byte payloads): two engines loaded with the same key, whatever their
earlier states, give keystreams with which one decrypts what the other encrypted. -/
def Obligations.DecryptionUndoesEncryption : Prop :=
  ∀ (s u : State) (k : Key) (payload : List (BitVec 8)), s.phase = .idle → u.phase = .idle →
    ∃ t v ks ks', runCommands [.init k, .next (8 * payload.length)] s = .next t ∧
      runCommands [.init k, .next (8 * payload.length)] u = .next v ∧
      Codec.packBytes (t.sent.drop s.sent.length) = some ks ∧ Codec.packBytes (v.sent.drop u.sent.length) = some ks' ∧
      (Codec.xorBytes payload ks).bind (Codec.xorBytes · ks') = some payload

/-- R63, R64: each form of a line assembles to port fields that decode to its command. `.op n` drives opcode n with key = 0
and count = 0. A literal out of range, a key of other than 8 units and a character above U+00FF give no command. Which error a
line with two of them reports is the model's choice (log entry 19). -/
def Obligations.AssembledLinesDecode : Prop :=
  ∀ w : Nat, 1 ≤ w →
    (Assembler.assembleLine w .nop).map (decodePort w) = .ok .nop ∧
    (Assembler.assembleLine w .step).map (decodePort w) = .ok (.next 1) ∧
    (∀ k, (Assembler.assembleLine w (.init k)).map (decodePort w) =
      if k < 2 ^ 64 then .ok (.init (BitVec.ofNat 64 k)) else .error .literalOutOfRange) ∧
    (∀ c, (Assembler.assembleLine w (.next c)).map (decodePort w) =
      if c < 2 ^ w then .ok (.next c) else .error .literalOutOfRange) ∧
    (∀ n, n < 16 → Assembler.assembleLine w (.op n) = .ok { op := BitVec.ofNat 4 n, key := 0#64, count := 0 } ∧
      ∃ i, (Assembler.assembleLine w (.op n)).map (decodePort w) = .ok i ∧ i.opcode.toNat = n) ∧
    (Assembler.assembleLine w (.op 1)).map (decodePort w) = .ok (.init 0#64) ∧
    (Assembler.assembleLine w (.op 2)).map (decodePort w) = .ok (.next 0) ∧
    (∀ n, 16 ≤ n → Assembler.assembleLine w (.op n) = .error .literalOutOfRange) ∧
    (∀ bs : List (BitVec 8), (Assembler.assembleLine w (.initBytes (bs.map BitVec.toNat))).map (decodePort w) =
      match Codec.keyOfBytes bs with
      | .ok k => .ok (.init k)
      | .error _ => .error .invalidKeyLength) ∧
    (∀ bs : List Nat, (∃ b ∈ bs, 256 ≤ b) → Assembler.assembleLine w (.initBytes bs) = .error .literalOutOfRange) ∧
    (∀ cs : List Nat, cs.length ≠ 8 → Assembler.assembleLine w (.initText cs) = .error .invalidKeyLength) ∧
    (∀ cs : List Nat, cs.length = 8 → (∃ c ∈ cs, 256 ≤ c) →
      Assembler.assembleLine w (.initText cs) = .error .characterOutOfRange) ∧
    (∀ cs : List (BitVec 8), cs.length = 8 →
      ∃ k, Codec.keyOfBytes cs = .ok k ∧
        (Assembler.assembleLine w (.initText (cs.map BitVec.toNat))).map (decodePort w) = .ok (.init k))
end

