-- ==== Sys2Proof/Laws/State.lean ====
section
/-! SUPPORT. Each field after each named write of the state, so that no proof unfolds a record update. -/

namespace Sys2Proof.Machine

@[simp] theorem State.setRegs_regs (s : State) (r : Regs) : (s.setRegs r).regs = r := rfl
@[simp] theorem State.setRegs_initialized (s : State) (r : Regs) : (s.setRegs r).initialized = s.initialized := rfl
@[simp] theorem State.setRegs_err (s : State) (r : Regs) : (s.setRegs r).err = s.err := rfl
@[simp] theorem State.setRegs_phase (s : State) (r : Regs) : (s.setRegs r).phase = s.phase := rfl
@[simp] theorem State.setRegs_j (s : State) (r : Regs) : (s.setRegs r).j = s.j := rfl
@[simp] theorem State.setRegs_rem (s : State) (r : Regs) : (s.setRegs r).rem = s.rem := rfl
@[simp] theorem State.setRegs_key (s : State) (r : Regs) : (s.setRegs r).key = s.key := rfl
@[simp] theorem State.setRegs_countWidth (s : State) (r : Regs) : (s.setRegs r).countWidth = s.countWidth := rfl
@[simp] theorem State.setRegs_moves (s : State) (r : Regs) : (s.setRegs r).moves = s.moves := rfl
@[simp] theorem State.setRegs_sent (s : State) (r : Regs) : (s.setRegs r).sent = s.sent := rfl

@[simp] theorem State.setInitialized_regs (s : State) (b : Bool) : (s.setInitialized b).regs = s.regs := rfl
@[simp] theorem State.setInitialized_initialized (s : State) (b : Bool) : (s.setInitialized b).initialized = b := rfl
@[simp] theorem State.setInitialized_err (s : State) (b : Bool) : (s.setInitialized b).err = s.err := rfl
@[simp] theorem State.setInitialized_phase (s : State) (b : Bool) : (s.setInitialized b).phase = s.phase := rfl
@[simp] theorem State.setInitialized_j (s : State) (b : Bool) : (s.setInitialized b).j = s.j := rfl
@[simp] theorem State.setInitialized_rem (s : State) (b : Bool) : (s.setInitialized b).rem = s.rem := rfl
@[simp] theorem State.setInitialized_key (s : State) (b : Bool) : (s.setInitialized b).key = s.key := rfl
@[simp] theorem State.setInitialized_countWidth (s : State) (b : Bool) : (s.setInitialized b).countWidth = s.countWidth := rfl
@[simp] theorem State.setInitialized_moves (s : State) (b : Bool) : (s.setInitialized b).moves = s.moves := rfl
@[simp] theorem State.setInitialized_sent (s : State) (b : Bool) : (s.setInitialized b).sent = s.sent := rfl

@[simp] theorem State.setErr_regs (s : State) (e : ErrCode) : (s.setErr e).regs = s.regs := rfl
@[simp] theorem State.setErr_initialized (s : State) (e : ErrCode) : (s.setErr e).initialized = s.initialized := rfl
@[simp] theorem State.setErr_err (s : State) (e : ErrCode) : (s.setErr e).err = e := rfl
@[simp] theorem State.setErr_phase (s : State) (e : ErrCode) : (s.setErr e).phase = s.phase := rfl
@[simp] theorem State.setErr_j (s : State) (e : ErrCode) : (s.setErr e).j = s.j := rfl
@[simp] theorem State.setErr_rem (s : State) (e : ErrCode) : (s.setErr e).rem = s.rem := rfl
@[simp] theorem State.setErr_key (s : State) (e : ErrCode) : (s.setErr e).key = s.key := rfl
@[simp] theorem State.setErr_countWidth (s : State) (e : ErrCode) : (s.setErr e).countWidth = s.countWidth := rfl
@[simp] theorem State.setErr_moves (s : State) (e : ErrCode) : (s.setErr e).moves = s.moves := rfl
@[simp] theorem State.setErr_sent (s : State) (e : ErrCode) : (s.setErr e).sent = s.sent := rfl

@[simp] theorem State.setPhase_regs (s : State) (p : Phase) : (s.setPhase p).regs = s.regs := rfl
@[simp] theorem State.setPhase_initialized (s : State) (p : Phase) : (s.setPhase p).initialized = s.initialized := rfl
@[simp] theorem State.setPhase_err (s : State) (p : Phase) : (s.setPhase p).err = s.err := rfl
@[simp] theorem State.setPhase_phase (s : State) (p : Phase) : (s.setPhase p).phase = p := rfl
@[simp] theorem State.setPhase_j (s : State) (p : Phase) : (s.setPhase p).j = s.j := rfl
@[simp] theorem State.setPhase_rem (s : State) (p : Phase) : (s.setPhase p).rem = s.rem := rfl
@[simp] theorem State.setPhase_key (s : State) (p : Phase) : (s.setPhase p).key = s.key := rfl
@[simp] theorem State.setPhase_countWidth (s : State) (p : Phase) : (s.setPhase p).countWidth = s.countWidth := rfl
@[simp] theorem State.setPhase_moves (s : State) (p : Phase) : (s.setPhase p).moves = s.moves := rfl
@[simp] theorem State.setPhase_sent (s : State) (p : Phase) : (s.setPhase p).sent = s.sent := rfl

@[simp] theorem State.setJ_regs (s : State) (n : TickCount) : (s.setJ n).regs = s.regs := rfl
@[simp] theorem State.setJ_initialized (s : State) (n : TickCount) : (s.setJ n).initialized = s.initialized := rfl
@[simp] theorem State.setJ_err (s : State) (n : TickCount) : (s.setJ n).err = s.err := rfl
@[simp] theorem State.setJ_phase (s : State) (n : TickCount) : (s.setJ n).phase = s.phase := rfl
@[simp] theorem State.setJ_j (s : State) (n : TickCount) : (s.setJ n).j = n := rfl
@[simp] theorem State.setJ_rem (s : State) (n : TickCount) : (s.setJ n).rem = s.rem := rfl
@[simp] theorem State.setJ_key (s : State) (n : TickCount) : (s.setJ n).key = s.key := rfl
@[simp] theorem State.setJ_countWidth (s : State) (n : TickCount) : (s.setJ n).countWidth = s.countWidth := rfl
@[simp] theorem State.setJ_moves (s : State) (n : TickCount) : (s.setJ n).moves = s.moves := rfl
@[simp] theorem State.setJ_sent (s : State) (n : TickCount) : (s.setJ n).sent = s.sent := rfl

@[simp] theorem State.setRem_regs (s : State) (n : Nat) : (s.setRem n).regs = s.regs := rfl
@[simp] theorem State.setRem_initialized (s : State) (n : Nat) : (s.setRem n).initialized = s.initialized := rfl
@[simp] theorem State.setRem_err (s : State) (n : Nat) : (s.setRem n).err = s.err := rfl
@[simp] theorem State.setRem_phase (s : State) (n : Nat) : (s.setRem n).phase = s.phase := rfl
@[simp] theorem State.setRem_j (s : State) (n : Nat) : (s.setRem n).j = s.j := rfl
@[simp] theorem State.setRem_rem (s : State) (n : Nat) : (s.setRem n).rem = n := rfl
@[simp] theorem State.setRem_key (s : State) (n : Nat) : (s.setRem n).key = s.key := rfl
@[simp] theorem State.setRem_countWidth (s : State) (n : Nat) : (s.setRem n).countWidth = s.countWidth := rfl
@[simp] theorem State.setRem_moves (s : State) (n : Nat) : (s.setRem n).moves = s.moves := rfl
@[simp] theorem State.setRem_sent (s : State) (n : Nat) : (s.setRem n).sent = s.sent := rfl

@[simp] theorem State.setKey_regs (s : State) (k : Key) : (s.setKey k).regs = s.regs := rfl
@[simp] theorem State.setKey_initialized (s : State) (k : Key) : (s.setKey k).initialized = s.initialized := rfl
@[simp] theorem State.setKey_err (s : State) (k : Key) : (s.setKey k).err = s.err := rfl
@[simp] theorem State.setKey_phase (s : State) (k : Key) : (s.setKey k).phase = s.phase := rfl
@[simp] theorem State.setKey_j (s : State) (k : Key) : (s.setKey k).j = s.j := rfl
@[simp] theorem State.setKey_rem (s : State) (k : Key) : (s.setKey k).rem = s.rem := rfl
@[simp] theorem State.setKey_key (s : State) (k : Key) : (s.setKey k).key = k := rfl
@[simp] theorem State.setKey_countWidth (s : State) (k : Key) : (s.setKey k).countWidth = s.countWidth := rfl
@[simp] theorem State.setKey_moves (s : State) (k : Key) : (s.setKey k).moves = s.moves := rfl
@[simp] theorem State.setKey_sent (s : State) (k : Key) : (s.setKey k).sent = s.sent := rfl

@[simp] theorem State.setMoves_regs (s : State) (ms : List HostMove) : (s.setMoves ms).regs = s.regs := rfl
@[simp] theorem State.setMoves_initialized (s : State) (ms : List HostMove) : (s.setMoves ms).initialized = s.initialized := rfl
@[simp] theorem State.setMoves_err (s : State) (ms : List HostMove) : (s.setMoves ms).err = s.err := rfl
@[simp] theorem State.setMoves_phase (s : State) (ms : List HostMove) : (s.setMoves ms).phase = s.phase := rfl
@[simp] theorem State.setMoves_j (s : State) (ms : List HostMove) : (s.setMoves ms).j = s.j := rfl
@[simp] theorem State.setMoves_rem (s : State) (ms : List HostMove) : (s.setMoves ms).rem = s.rem := rfl
@[simp] theorem State.setMoves_key (s : State) (ms : List HostMove) : (s.setMoves ms).key = s.key := rfl
@[simp] theorem State.setMoves_countWidth (s : State) (ms : List HostMove) : (s.setMoves ms).countWidth = s.countWidth := rfl
@[simp] theorem State.setMoves_moves (s : State) (ms : List HostMove) : (s.setMoves ms).moves = ms := rfl
@[simp] theorem State.setMoves_sent (s : State) (ms : List HostMove) : (s.setMoves ms).sent = s.sent := rfl

@[simp] theorem State.emit_regs (s : State) (bits : List Bool) : (s.emit bits).regs = s.regs := rfl
@[simp] theorem State.emit_initialized (s : State) (bits : List Bool) : (s.emit bits).initialized = s.initialized := rfl
@[simp] theorem State.emit_err (s : State) (bits : List Bool) : (s.emit bits).err = s.err := rfl
@[simp] theorem State.emit_phase (s : State) (bits : List Bool) : (s.emit bits).phase = s.phase := rfl
@[simp] theorem State.emit_j (s : State) (bits : List Bool) : (s.emit bits).j = s.j := rfl
@[simp] theorem State.emit_rem (s : State) (bits : List Bool) : (s.emit bits).rem = s.rem := rfl
@[simp] theorem State.emit_key (s : State) (bits : List Bool) : (s.emit bits).key = s.key := rfl
@[simp] theorem State.emit_countWidth (s : State) (bits : List Bool) : (s.emit bits).countWidth = s.countWidth := rfl
@[simp] theorem State.emit_moves (s : State) (bits : List Bool) : (s.emit bits).moves = s.moves := rfl
@[simp] theorem State.emit_sent (s : State) (bits : List Bool) : (s.emit bits).sent = s.sent ++ bits := rfl

@[simp] theorem resetBlock_regs (s : State) : (resetBlock s).regs = State.reset.regs := rfl
@[simp] theorem resetBlock_initialized (s : State) : (resetBlock s).initialized = State.reset.initialized := rfl
@[simp] theorem resetBlock_err (s : State) : (resetBlock s).err = State.reset.err := rfl
@[simp] theorem resetBlock_phase (s : State) : (resetBlock s).phase = State.reset.phase := rfl
@[simp] theorem resetBlock_j (s : State) : (resetBlock s).j = State.reset.j := rfl
@[simp] theorem resetBlock_rem (s : State) : (resetBlock s).rem = State.reset.rem := rfl
@[simp] theorem resetBlock_key (s : State) : (resetBlock s).key = State.reset.key := rfl
@[simp] theorem resetBlock_countWidth (s : State) : (resetBlock s).countWidth = s.countWidth := rfl
@[simp] theorem resetBlock_moves (s : State) : (resetBlock s).moves = s.moves := rfl
@[simp] theorem resetBlock_sent (s : State) : (resetBlock s).sent = s.sent := rfl

@[simp] theorem raiseErr_regs (code : ErrCode) (s : State) : (raiseErr code s).regs = s.regs := rfl
@[simp] theorem raiseErr_initialized (code : ErrCode) (s : State) : (raiseErr code s).initialized = s.initialized := rfl
@[simp] theorem raiseErr_err (code : ErrCode) (s : State) : (raiseErr code s).err = code := rfl
@[simp] theorem raiseErr_phase (code : ErrCode) (s : State) : (raiseErr code s).phase = s.phase := rfl
@[simp] theorem raiseErr_j (code : ErrCode) (s : State) : (raiseErr code s).j = s.j := rfl
@[simp] theorem raiseErr_rem (code : ErrCode) (s : State) : (raiseErr code s).rem = s.rem := rfl
@[simp] theorem raiseErr_key (code : ErrCode) (s : State) : (raiseErr code s).key = s.key := rfl
@[simp] theorem raiseErr_countWidth (code : ErrCode) (s : State) : (raiseErr code s).countWidth = s.countWidth := rfl
@[simp] theorem raiseErr_moves (code : ErrCode) (s : State) : (raiseErr code s).moves = s.moves := rfl
@[simp] theorem raiseErr_sent (code : ErrCode) (s : State) : (raiseErr code s).sent = s.sent := rfl

@[simp] theorem carryOut_regs (s : State) : (carryOut s).regs = s.regs := rfl
@[simp] theorem carryOut_initialized (s : State) : (carryOut s).initialized = s.initialized := rfl
@[simp] theorem carryOut_err (s : State) : (carryOut s).err = errNone := rfl
@[simp] theorem carryOut_phase (s : State) : (carryOut s).phase = s.phase := rfl
@[simp] theorem carryOut_j (s : State) : (carryOut s).j = s.j := rfl
@[simp] theorem carryOut_rem (s : State) : (carryOut s).rem = s.rem := rfl
@[simp] theorem carryOut_key (s : State) : (carryOut s).key = s.key := rfl
@[simp] theorem carryOut_countWidth (s : State) : (carryOut s).countWidth = s.countWidth := rfl
@[simp] theorem carryOut_moves (s : State) : (carryOut s).moves = s.moves := rfl
@[simp] theorem carryOut_sent (s : State) : (carryOut s).sent = s.sent := rfl

@[simp] theorem produce_regs (n : Nat) (s : State) : (produce n s).regs = clockTicks n s.regs := rfl
@[simp] theorem produce_initialized (n : Nat) (s : State) : (produce n s).initialized = s.initialized := rfl
@[simp] theorem produce_err (n : Nat) (s : State) : (produce n s).err = s.err := rfl
@[simp] theorem produce_phase (n : Nat) (s : State) : (produce n s).phase = s.phase := rfl
@[simp] theorem produce_j (n : Nat) (s : State) : (produce n s).j = s.j := rfl
@[simp] theorem produce_rem (n : Nat) (s : State) : (produce n s).rem = s.rem := rfl
@[simp] theorem produce_key (n : Nat) (s : State) : (produce n s).key = s.key := rfl
@[simp] theorem produce_countWidth (n : Nat) (s : State) : (produce n s).countWidth = s.countWidth := rfl
@[simp] theorem produce_moves (n : Nat) (s : State) : (produce n s).moves = s.moves := rfl
@[simp] theorem produce_sent (n : Nat) (s : State) : (produce n s).sent = s.sent ++ keystream n s.regs := rfl

end Sys2Proof.Machine
end

