-- ==== Sys2Proof/Laws/Ops.lean ====
section
/-! SUPPORT. What each shared operation can do, said once: acceptance, the command meanings, the datapath's runs, the tick and
the step. Later proofs cite these and unfold nothing. -/

namespace Sys2Proof.Machine

/-! ### Acceptance and exec -/

theorem onAcceptance_idle {s : State} (f : State → State) (h : s.phase = .idle) : onAcceptance s f = .next (f s) := by
  simp [onAcceptance, h]

theorem onAcceptance_busy {s : State} (f : State → State) (h : s.phase ≠ .idle) : onAcceptance s f = .next s := by
  simp [onAcceptance, h]

/-- The effect of each command once it is accepted. -/
def commandEffect (i : Instr) (s : State) : State :=
  match i with
  | .nop => nopEffect s
  | .init k => initEffect k s
  | .next c => nextEffect c s
  | .reserved3 | .reserved4 | .reserved5 | .reserved6 | .reserved7 | .reserved8 | .reserved9
  | .reservedA | .reservedB | .reservedC | .reservedD | .reservedE | .reservedF => reservedEffect s

/-- exec is acceptance followed by the command's effect. -/
theorem exec_eq_onAcceptance (i : Instr) (s : State) : exec i s = onAcceptance s (commandEffect i) := by
  cases i <;> rfl

theorem exec_idle {s : State} (i : Instr) (h : s.phase = .idle) : exec i s = .next (commandEffect i s) := by
  rw [exec_eq_onAcceptance, onAcceptance_idle _ h]

theorem nextEffect_of_initialized {s : State} (c : Nat) (h : s.initialized = true) :
    nextEffect c s = produce c (carryOut s) := by
  simp [nextEffect, h]

theorem nextEffect_of_not_initialized {s : State} (c : Nat) (h : s.initialized = false) :
    nextEffect c s = raiseErr errNotInitialized s := by
  simp [nextEffect, h]

/-- The commands that write ERR and nothing else: NOP and the reserved opcodes. -/
theorem commandEffect_of_errOnly {s : State} {i : Instr} (hk : ∀ k, i ≠ .init k) (hc : ∀ c, i ≠ .next c) :
    commandEffect i s = s.setErr (acceptanceCode s.initialized i) := by
  cases i with
  | init k => exact absurd rfl (hk k)
  | next c => exact absurd rfl (hc c)
  | nop => rfl
  | reserved3 | reserved4 | reserved5 | reserved6 | reserved7 | reserved8 | reserved9 => rfl
  | reservedA | reservedB | reservedC | reservedD | reservedE | reservedF => rfl

/-! ### Runs of the datapath -/

theorem clockTicks_succ (n : Nat) (r : Regs) : clockTicks (n + 1) r = clockTick (clockTicks n r) := by
  induction n generalizing r with
  | zero => rfl
  | succ n ih => exact ih (clockTick r)

theorem clockTicks_add (a b : Nat) (r : Regs) : clockTicks (a + b) r = clockTicks b (clockTicks a r) := by
  induction b with
  | zero => rfl
  | succ b ih => rw [← Nat.add_assoc, clockTicks_succ, clockTicks_succ, ih]

@[simp] theorem keystream_length (n : Nat) (r : Regs) : (keystream n r).length = n := by
  induction n generalizing r with
  | zero => rfl
  | succ n ih => simp [keystream, ih]

theorem keystream_add (a b : Nat) (r : Regs) :
    keystream (a + b) r = keystream a r ++ keystream b (clockTicks a r) := by
  induction a generalizing r with
  | zero => simp [keystream, clockTicks]
  | succ a ih => simp [Nat.succ_add, keystream, clockTicks, ih]

theorem keystream_succ (n : Nat) (r : Regs) :
    keystream (n + 1) r = keystream n r ++ [outBit (clockTicks n r)] := by
  rw [keystream_add]
  rfl

/-! ### The acceptance step of NEXT and the three busy phases, case by case -/

theorem acceptNext_of_not_initialized {s : State} (c : Nat) (h : s.initialized = false) :
    acceptNext c s = raiseErr errNotInitialized s := by
  simp [acceptNext, h]

theorem acceptNext_zero {s : State} (h : s.initialized = true) : acceptNext 0 s = carryOut s := by
  simp [acceptNext, h]

theorem acceptNext_pos {s : State} {c : Nat} (h : s.initialized = true) (hc : c ≠ 0) :
    acceptNext c s = ((carryOut s).setRem c).setPhase .gen := by
  simp [acceptNext, h, hc]

theorem mixPhaseTick_last {s : State} (h : s.j = 63#7) :
    mixPhaseTick s = ((s.setRegs (mixTick (keyBit s.key s.j) s.regs)).setPhase .warm).setJ 0#7 := by
  simp [mixPhaseTick, h]

theorem mixPhaseTick_more {s : State} (h : s.j ≠ 63#7) :
    mixPhaseTick s = (s.setRegs (mixTick (keyBit s.key s.j) s.regs)).setJ (s.j + 1#7) := by
  simp [mixPhaseTick, h]

theorem warmPhaseTick_last {s : State} (h : s.j = 99#7) :
    warmPhaseTick s = (((s.setRegs (clockTick s.regs)).setPhase .idle).setJ 0#7).setInitialized true := by
  simp [warmPhaseTick, warmTick, h]

theorem warmPhaseTick_more {s : State} (h : s.j ≠ 99#7) :
    warmPhaseTick s = (s.setRegs (clockTick s.regs)).setJ (s.j + 1#7) := by
  simp [warmPhaseTick, warmTick, h]

theorem transferTick_last {s : State} (h : s.rem = 1) :
    transferTick s = (((s.emit [outBit s.regs]).setRegs (clockTick s.regs)).setPhase .idle).setRem 0 := by
  simp [transferTick, h]

theorem transferTick_more {s : State} (h : s.rem ≠ 1) :
    transferTick s =
      ((s.emit [outBit s.regs]).setRegs (clockTick s.regs)).setRem (remPred s.countWidth s.rem) := by
  simp [transferTick, h]

/-- Within a COUNT_WIDTH-bit counter's range, REM - 1 does not wrap (R30). -/
theorem remPred_of_pos {w n : Nat} (h1 : 1 ≤ n) (h2 : n < 2 ^ w) : remPred w n = n - 1 := by
  have h : n + (2 ^ w - 1) = n - 1 + 2 ^ w := by omega
  rw [remPred, h, Nat.add_mod_right, Nat.mod_eq_of_lt (by omega)]

/-! ### Ticks and steps -/

theorem tick_reset {p : Inputs} (s : State) (h : p.rst = true) : tick p s = resetBlock s := by simp [tick, h]

theorem tick_run {p : Inputs} (s : State) (h : p.rst = false) : tick p s = sequencerTick p s := by simp [tick, h]

theorem sequencerTick_idle {s : State} (p : Inputs) (h : s.phase = .idle) : sequencerTick p s = idleTick p s := by
  simp [sequencerTick, h]

theorem sequencerTick_mix {s : State} (p : Inputs) (h : s.phase = .mix) : sequencerTick p s = mixPhaseTick s := by
  simp [sequencerTick, h]

theorem sequencerTick_warm {s : State} (p : Inputs) (h : s.phase = .warm) : sequencerTick p s = warmPhaseTick s := by
  simp [sequencerTick, h]

theorem sequencerTick_gen {s : State} (p : Inputs) (h : s.phase = .gen) : sequencerTick p s = genPhaseTick p s := by
  simp [sequencerTick, h]

theorem ticks_cons (p : Inputs) (ps : List Inputs) (s : State) : ticks (p :: ps) s = ticks ps (tick p s) := rfl

/-- A tick neither reads nor writes the host's moves. -/
theorem tick_setMoves (p : Inputs) (s : State) (ms : List HostMove) :
    tick p (s.setMoves ms) = (tick p s).setMoves ms := by
  cases hr : p.rst with
  | true => rw [tick_reset _ hr, tick_reset _ hr]; rfl
  | false =>
    rw [tick_run _ hr, tick_run _ hr]
    cases hp : s.phase with
    | idle =>
      rw [sequencerTick_idle _ hp, sequencerTick_idle _ (by simpa using hp)]
      simp only [idleTick, State.setMoves_countWidth]
      split
      · cases decodePort s.countWidth p.cmd with
        | next c =>
          rcases Bool.eq_false_or_eq_true s.initialized with hi | hi
          · by_cases hc : c = 0
            · subst hc
              exact (acceptNext_zero (by simpa using hi)).trans (congrArg (State.setMoves · ms) (acceptNext_zero hi).symm)
            · exact (acceptNext_pos (by simpa using hi) hc).trans
                (congrArg (State.setMoves · ms) (acceptNext_pos hi hc).symm)
          · exact (acceptNext_of_not_initialized c (by simpa using hi)).trans
              (congrArg (State.setMoves · ms) (acceptNext_of_not_initialized c hi).symm)
        | nop | init | reserved3 | reserved4 | reserved5 | reserved6 | reserved7 => rfl
        | reserved8 | reserved9 | reservedA | reservedB | reservedC | reservedD | reservedE | reservedF => rfl
      · rfl
    | mix =>
      rw [sequencerTick_mix _ hp, sequencerTick_mix _ (by simpa using hp)]
      by_cases hj : s.j = 63#7
      · rw [mixPhaseTick_last hj, mixPhaseTick_last (by simpa using hj)]; rfl
      · rw [mixPhaseTick_more hj, mixPhaseTick_more (by simpa using hj)]; rfl
    | warm =>
      rw [sequencerTick_warm _ hp, sequencerTick_warm _ (by simpa using hp)]
      by_cases hj : s.j = 99#7
      · rw [warmPhaseTick_last hj, warmPhaseTick_last (by simpa using hj)]; rfl
      · rw [warmPhaseTick_more hj, warmPhaseTick_more (by simpa using hj)]; rfl
    | gen =>
      rw [sequencerTick_gen _ hp, sequencerTick_gen _ (by simpa using hp)]
      simp only [genPhaseTick]
      split
      · by_cases hj : s.rem = 1
        · rw [transferTick_last hj, transferTick_last (by simpa using hj)]; rfl
        · rw [transferTick_more hj, transferTick_more (by simpa using hj)]; rfl
      · rfl

theorem step_command {s : State} {c : CommandPort} {rest : List HostMove} (hm : s.moves = .command c :: rest)
    (h : s.phase = .idle) : step s = exec (decodePort s.countWidth c) (s.setMoves rest) := by
  simp [step, fetch, hm, h]

theorem step_waiting {s : State} {c : CommandPort} {rest : List HostMove} (hm : s.moves = .command c :: rest)
    (h : s.phase ≠ .idle) : step s = .next (tick (waitingInputs c) s) := by
  simp [step, fetch, advance, hm, h]

theorem step_tick {s : State} {p : Inputs} {rest : List HostMove} (hm : s.moves = .tick p :: rest) :
    step s = .next (tick p (s.setMoves rest)) := by
  simp [step, fetch, advance, hm]

theorem step_quiet {s : State} (hm : s.moves = []) : step s = .next (tick quietInputs s) := by
  simp [step, fetch, advance, hm]

/-- Everything a step can do: a whole command when the block is idle, else one tick with the inputs of this step, on the state
with the move used up or kept. -/
theorem step_cases {s t : State} (h : step s = .next t) :
    (∃ c rest, s.moves = .command c :: rest ∧ s.phase = .idle ∧
      t = commandEffect (decodePort s.countWidth c) (s.setMoves rest)) ∨
    (∃ p ms, inputsNow s = some p ∧ transactedNow s = none ∧ t = tick p (s.setMoves ms)) := by
  cases hm : s.moves with
  | nil =>
    rw [step_quiet hm] at h
    refine .inr ⟨quietInputs, s.moves, ?_, ?_, ?_⟩
    · simp [inputsNow, hm]
    · simp [transactedNow, fetch, hm]
    · cases h; rfl
  | cons m rest =>
    cases m with
    | tick p =>
      rw [step_tick hm] at h
      refine .inr ⟨p, rest, ?_, ?_, ?_⟩
      · simp [inputsNow, hm]
      · simp [transactedNow, fetch, hm]
      · cases h; rfl
    | command c =>
      by_cases hp : s.phase = .idle
      · rw [step_command hm hp, exec_idle (s := s.setMoves rest) _ hp] at h
        refine .inl ⟨c, rest, rfl, hp, ?_⟩
        cases h; rfl
      · rw [step_waiting hm hp] at h
        refine .inr ⟨waitingInputs c, s.moves, ?_, ?_, ?_⟩
        · simp [inputsNow, hm, hp]
        · simp [transactedNow, fetch, hm, hp]
        · cases h; rfl

end Sys2Proof.Machine
end

