-- ==== Sys2Proof/Laws/PerInstr.lean ====
section
/-! SUPPORT. A fact of every command as data, constructor by constructor: the opcode table has exactly one row for it, the row of
its opcode, and the port fields that issue it show that opcode (30_encoding.md R60). -/

namespace Sys2Proof.Laws.RowOf

/-- The command's word has its opcode in CW[3:0], and exactly the table row of that opcode matches it. -/
def Statement (i : Instr) : Prop :=
  (encodePort i).op = i.opcode ∧
  opcodeTable.filter (fun r => i.opcode.toNat &&& r.mask == r.pattern) = [⟨0xF, i.opcode.toNat⟩]

/-- Every opcode has exactly one row of the table. -/
theorem row_of_opcode : ∀ op : Opcode, opcodeTable.filter (fun r => op.toNat &&& r.mask == r.pattern) =
    [⟨0xF, op.toNat⟩] := by decide

theorem nop : Statement .nop := ⟨rfl, row_of_opcode _⟩
theorem init (key : Key) : Statement (.init key) := ⟨rfl, row_of_opcode _⟩
theorem next (count : Nat) : Statement (.next count) := ⟨rfl, row_of_opcode _⟩
theorem reserved3 : Statement .reserved3 := ⟨rfl, row_of_opcode _⟩
theorem reserved4 : Statement .reserved4 := ⟨rfl, row_of_opcode _⟩
theorem reserved5 : Statement .reserved5 := ⟨rfl, row_of_opcode _⟩
theorem reserved6 : Statement .reserved6 := ⟨rfl, row_of_opcode _⟩
theorem reserved7 : Statement .reserved7 := ⟨rfl, row_of_opcode _⟩
theorem reserved8 : Statement .reserved8 := ⟨rfl, row_of_opcode _⟩
theorem reserved9 : Statement .reserved9 := ⟨rfl, row_of_opcode _⟩
theorem reservedA : Statement .reservedA := ⟨rfl, row_of_opcode _⟩
theorem reservedB : Statement .reservedB := ⟨rfl, row_of_opcode _⟩
theorem reservedC : Statement .reservedC := ⟨rfl, row_of_opcode _⟩
theorem reservedD : Statement .reservedD := ⟨rfl, row_of_opcode _⟩
theorem reservedE : Statement .reservedE := ⟨rfl, row_of_opcode _⟩
theorem reservedF : Statement .reservedF := ⟨rfl, row_of_opcode _⟩

end Sys2Proof.Laws.RowOf
end

