-- ==== Sys2Proof/Laws/Runs.lean ====
section
/-! SUPPORT. One lemma per case of a run's observation and of its end (41_commands.md R87), so that later proofs unfold none
of them. -/

namespace Sys2Proof.Machine

@[simp] theorem Observation.cons_commands (e : ErrCode) (bits : List Bool) (o : Observation) :
    (o.cons e bits).commands = (e, bits) :: o.commands := rfl
@[simp] theorem Observation.cons_final (e : ErrCode) (bits : List Bool) (o : Observation) :
    (o.cons e bits).final = o.final := rfl

/-- A command of an idle block shows its ERR and bits, and then what the commands after it show. -/
theorem observe_cons_idle {s : State} (i : Instr) (is : List Instr) (h : s.phase = .idle) :
    observe (i :: is) s = (observe is (commandEffect i s)).cons (commandEffect i s).err
      ((commandEffect i s).sent.drop s.sent.length) := by
  simp only [observe, exec_idle i h]

/-- The ticks of a run that has ended show nothing more. -/
theorem watch_nil_idle {s : State} (h : s.phase = .idle) :
    watch [] s = some ([], { commands := [], final := s.abstract }) := by
  simp [watch, h]

/-- Ticks with a reset among them have no observation. -/
theorem watch_of_reset (ps : List Inputs) (s : State) (h : ∃ p ∈ ps, p.rst = true) : watch ps s = none := by
  induction ps generalizing s with
  | nil => obtain ⟨p, hp, -⟩ := h; cases hp
  | cons q qs ih =>
    simp only [watch]
    split
    · rfl
    · rename_i hq
      obtain ⟨p, hp, hr⟩ := h
      rcases List.mem_cons.mp hp with rfl | hp
      · exact absurd hr hq
      · rw [ih _ ⟨p, hp, hr⟩]; rfl

/-- A tick that accepts a command begins its part of the observation. -/
theorem watch_cons_accepted {s : State} {p : Inputs} (ps : List Inputs) (hr : p.rst = false) (hv : p.cmdValid = true)
    (hp : s.phase = .idle) :
    watch (p :: ps) s =
      (watch ps (tick p s)).map fun later => ([], later.2.cons (tick p s).err later.1) := by
  simp [watch, hr, hv, hp]

/-- Any other tick adds its bits to the command in progress. -/
theorem watch_cons_other {s : State} {p : Inputs} (ps : List Inputs) (hr : p.rst = false)
    (h : ¬(p.cmdValid = true ∧ s.phase = .idle)) :
    watch (p :: ps) s =
      (watch ps (tick p s)).map fun later => ((tick p s).sent.drop s.sent.length ++ later.1, later.2) := by
  simp only [watch, hr, if_neg h]
  rfl

theorem observeTicks_idle {s : State} (ps : List Inputs) (h : s.phase = .idle) :
    observeTicks ps s = (watch ps s).map Prod.snd := by
  simp [observeTicks, h]

/-- Before the next reset, an ended run's next tick offers nothing and leaves it ended. -/
theorem offersInRun_cons_tick {p : Inputs} (rest : List HostMove) (hr : p.rst = false) :
    offersInRun (.tick p :: rest) = false ↔ p.cmdValid = false ∧ offersInRun rest = false := by
  simp [offersInRun, hr]

end Sys2Proof.Machine
end

