-- ==== Sys2Proof/Tests/Slice0.lean ====
section
/-! SUPPORT. Tests whose expected results come from the spec's text (95_test_vectors.md and the rules' own examples), and for each
statement with hypotheses a concrete state that meets them. -/

namespace Sys2Proof.Tests

open Sys2Proof.Machine

/-! ### Small states and inputs -/

/-- The state that a step or a command answers. -/
def stateOf : Host.Outcome State Fault Refusal → Option State
  | .next s => some s
  | .fault _ => none
  | .refused _ => none

/-- Registers from their three numbers. -/
def regs (a b c : Nat) : Regs := ⟨BitVec.ofNat 19 a, BitVec.ofNat 22 b, BitVec.ofNat 23 c⟩

/-- An initialised, idle block with the ready registers of T7 (K = 0x0123456789ABCDEF). -/
def ready : State :=
  { State.reset with regs := regs 0x304E6 0x1913D2 0x6546EB, initialized := true, key := 0x0123456789ABCDEF#64 }

/-- A block in the mixing phase, three ticks into T2's key. -/
def mixing : State := { State.reset with phase := .mix, j := 3#7, key := 0x1223456789ABCDEF#64 }

/-- A block on its last mixing tick. -/
def mixingLast : State := { mixing with j := 63#7 }

/-- A block in its last warm-up tick. -/
def warming : State := { State.reset with phase := .warm, j := 99#7, regs := regs 0x00100 0x400 0, key := 1#64 }

/-- A block producing keystream: two bits to go, the registers of U5's first row. -/
def producing : State :=
  { State.reset with phase := .gen, rem := 2, regs := regs 1 0 0, initialized := true, sent := [true] }

/-- Port inputs that offer a command and take a bit where one is offered. -/
def offer (op : Opcode) (key : Key) (count : Nat) : Inputs :=
  { rst := false, cmdValid := true, cmd := ⟨op, key, count⟩, ksReady := true }

/-- Port inputs with rst = 1. -/
def resetInputs : Inputs := { quietInputs with rst := true }

/-- Port inputs that take a bit and offer no command. -/
def takeInputs : Inputs := { quietInputs with ksReady := true }

/-- s with one host tick to come. -/
def withTick (s : State) (p : Inputs) : State := { s with moves := [.tick p] }

/-- s with one whole command to come. -/
def withCommand (s : State) (op : Opcode) (key : Key) (count : Nat) : State :=
  { s with moves := [.command ⟨op, key, count⟩] }

/-- The code points of a line, from its characters. -/
def line (cs : List Char) : List Nat := cs.map Char.toNat

/-! ### Well-formedness -/

/-- R61: C <= 2^COUNT_WIDTH - 1, so 256 does not fit 8 wires, and 255 does. -/
theorem test_next_out_of_range_is_ill_formed :
    (Instr.next 256).wellFormed 8 = false ∧ (Instr.next 255).wellFormed 8 = true := by decide

/-- R10: COUNT_WIDTH = 0 is not legal. -/
theorem test_width_zero_is_illegal : ¬ Config.LegalWidth 0 := by decide

/-! ### Decoding, from words written out bit by bit (R59, R60) -/

/-- NOP: op = 0b0000, with every don't-care bit 1: CW = {8 ones, 64 ones, 0000}. -/
theorem test_decode_nop : decodeWord 8 0xFFFFFFFFFFFFFFFFFF0 = .ok .nop := by rfl
/-- INIT: op = 0b0001, key = CW[67:4]; P5's INIT 0x1. -/
theorem test_decode_init : decodeWord 8 0x0000000000000000011 = .ok (.init 1#64) := by rfl
/-- INIT takes all 64 key bits and none of count: K = 0x8000000000000000 stands in CW[67]. -/
theorem test_decode_init_top_bit : decodeWord 8 0xFF80000000000000001 = .ok (.init 0x8000000000000000#64) := by rfl
/-- NEXT: op = 0b0010, count = CW[75:68]; the largest count. -/
theorem test_decode_next : decodeWord 8 0xFF00000000000000002 = .ok (.next 255) := by rfl
/-- The same word shape at COUNT_WIDTH = 16: count = CW[83:68]. -/
theorem test_decode_next_wide : decodeWord 16 0x012300000000000000002 = .ok (.next 0x123) := by rfl
/-- The thirteen reserved opcodes. -/
theorem test_decode_reserved :
    (List.range 13).map (fun n => decodeTableWord 8 (n + 3)) =
      [some .reserved3, some .reserved4, some .reserved5, some .reserved6, some .reserved7, some .reserved8,
       some .reserved9, some .reservedA, some .reservedB, some .reservedC, some .reservedD, some .reservedE,
       some .reservedF] := by decide
/-- A number of 77 bits is no command word for COUNT_WIDTH = 8. -/
theorem test_decode_too_wide : decodeWord 8 0x10000000000000000000 = .error .wordTooWide := by rfl
/-- P3's listing words, encoded: CW = {count, key, op}. -/
theorem test_encode_listing :
    encode (.init 0x0123456789ABCDEF#64) = 0x000123456789ABCDEF1 ∧ encode (.next 8) = 0x0800000000000000002 ∧
    encode .reserved5 = 0x5 := by decide
/-- No two rows of the opcode table match one word. -/
theorem test_rows_do_not_overlap : opcodeTable.Pairwise fun a b => a.pattern &&& b.mask ≠ b.pattern &&& a.mask := by
  decide

/-! ### The datapath vectors U1 to U5 -/

theorem test_u1_r1 :
    [0x7FFFF, 0x40000, 0x02000, 0x00100, 0x00001].map (fun n => (fb1 (BitVec.ofNat 19 n), adv1 (BitVec.ofNat 19 n))) =
      [(false, 0x3FFFF#19), (true, 0x60000#19), (true, 0x41000#19), (false, 0x00080#19), (false, 0#19)] := by
  decide +kernel
theorem test_u1_r2 :
    [0x3FFFFF, 0x200000, 0x100000, 0x300000, 1].map (fun n => (fb2 (BitVec.ofNat 22 n), adv2 (BitVec.ofNat 22 n))) =
      [(false, 0x1FFFFF#22), (true, 0x300000#22), (true, 0x280000#22), (false, 0x180000#22), (false, 0#22)] := by
  decide +kernel
theorem test_u1_r3 :
    [0x7FFFFF, 0x000080, 0x400000, 0x700080, 1].map (fun n => (fb3 (BitVec.ofNat 23 n), adv3 (BitVec.ofNat 23 n))) =
      [(false, 0x3FFFFF#23), (true, 0x400040#23), (true, 0x600000#23), (false, 0x380040#23), (false, 0#23)] := by
  decide +kernel
theorem test_u2_select :
    [regs 0 0 0, regs 0 0 0x400, regs 0 0x400 0, regs 0 0x400 0x400, regs 0x100 0 0, regs 0x100 0 0x400,
     regs 0x100 0x400 0, regs 0x100 0x400 0x400].map clockTick =
    [regs 0 0 0, regs 0 0 0x400, regs 0 0x400 0, regs 0 0x200 0x400, regs 0x100 0 0, regs 0x80 0 0x400,
     regs 0x80 0x400 0, regs 0x80 0x400 0x400] := by decide +kernel
theorem test_u3_mix :
    mixTick true (regs 0 0 0) = regs 0x40000 0x200000 0x400000 ∧
    mixTick false (regs 0x7FFFF 0x3FFFFF 0x7FFFFF) = regs 0x3FFFF 0x1FFFFF 0x3FFFFF ∧
    mixTick true (regs 0x7FFFF 0x3FFFFF 0x7FFFFF) = regs 0x7FFFF 0x3FFFFF 0x7FFFFF ∧
    mixTick true (regs 0x40000 0x200000 0x400000) = regs 0x20000 0x100000 0x200000 := by decide +kernel
theorem test_u4_warm :
    warmTick (regs 0x00100 0x400 0) = regs 0x00080 0x400 0 ∧
    warmTick (regs 0x40000 0x200000 0x400000) = regs 0x60000 0x200000 0x400000 ∧
    warmTick (regs 0 0x400 0x400) = regs 0 0x200 0x400 := by decide +kernel
/-- The second row: z is taken before clocking. -/
theorem test_u5_outbit :
    [regs 1 0 0, regs 1 1 1, regs 0x100 0x400 0, regs 0x7FFFF 0x3FFFFF 0x7FFFFF, regs 0x40000 0x200000 0x400000].map
      outBit = [true, true, false, true, false] := by decide +kernel
/-- T2: the first eight key bits of K = 0x1223456789ABCDEF, and the registers after them. -/
theorem test_t2_mixing :
    (keySequence 0x1223456789ABCDEF#64).take 8 = [false, false, false, true, false, false, true, false] ∧
    mixSequence ((keySequence 0x1223456789ABCDEF#64).take 8) zeroRegs = regs 0x2C000 0x060000 0x2C0000 := by
  decide +kernel
/-- T4: mixed registers of K = 0x8000000000000000. -/
theorem test_t4_mixed :
    mixSequence (keySequence 0x8000000000000000#64) zeroRegs = regs 0x18273 0x2DB6DB 0x1B6C1B := by decide +kernel

/-! ### The commands, one step each -/

/-- R79's example: NOP clears ERR = NOT_INITIALIZED. -/
theorem test_nop : (stateOf (exec .nop { State.reset with err := 1#2 })).map (·.err) = some 0#2 := by decide
/-- T6: the ready registers of K = 0x1223456789ABCDEF. -/
theorem test_init_t6 :
    (stateOf (exec (.init 0x1223456789ABCDEF#64) State.reset)).map (fun s => (s.regs, s.initialized)) =
      some (regs 0x21A54 0x3F22FC 0x532D5B, true) := by decide +kernel
/-- T3, over a block that held another key (R84). -/
theorem test_init_t3 :
    (stateOf (exec (.init 1#64) { ready with err := 2#2 })).map (fun s => (s.regs, s.err)) =
      some (regs 0x02730 0x1B6C00 0x400000, 0#2) := by decide +kernel
/-- T7: NEXT 16 from ready emits 1001100011011111 and ends in (0x18273, 0x1913D2, 0x6546EB). -/
theorem test_next_t7 :
    (stateOf (exec (.next 16) ready)).map (fun s => (s.regs, s.sent)) =
      some (regs 0x18273 0x1913D2 0x6546EB,
        [true, false, false, true, true, false, false, false, true, true, false, true, true, true, true, true]) := by
  decide +kernel
/-- T11: NEXT 0 from reset fails too. -/
theorem test_next_before_init : (stateOf (exec (.next 0) State.reset)).map (·.err) = some 1#2 := by decide
/-- T11: every reserved opcode, before any INIT, gives ERR = 2 and no bit. -/
theorem test_reserved :
    [Instr.reserved3, .reserved4, .reserved5, .reserved6, .reserved7, .reserved8, .reserved9, .reservedA, .reservedB,
     .reservedC, .reservedD, .reservedE, .reservedF].map (fun i => (stateOf (exec i State.reset)).map fun s => (s.err, s.sent)) =
      List.replicate 13 (some (2#2, [])) := by decide
/-- `.op 0xF` after INIT leaves the registers and INITIALIZED (R82's example). -/
theorem test_reserved_keeps_stream :
    stateOf (exec .reservedF ready) = some { ready with err := 2#2 } := by decide
/-- The step runs a placed word: INIT 0x1 is the word 0x11. -/
theorem test_step_runs_placed_word :
    (stateOf (step (State.reset.withFetchWord 8 0x11))).map (·.regs) = some (regs 0x02730 0x1B6C00 0x400000) := by
  decide +kernel

/-! ### The tick level, one step each -/

/-- T2, tick 3: k_3 = 1 enters all three registers. -/
theorem test_mix_tick :
    (stateOf (step (withTick mixing quietInputs))).map (fun s => (s.regs, s.j)) =
      some (regs 0x40000 0x200000 0x400000, 4#7) := by decide +kernel
/-- The hundredth warm-up tick ends INIT; U4's first row. -/
theorem test_warm_tick_last :
    (stateOf (step (withTick warming quietInputs))).map (fun s => (s.regs, s.phase, s.initialized)) =
      some (regs 0x00080 0x400 0, .idle, true) := by decide +kernel
/-- U5's first row: the bit 1 is transferred and REM counts down. -/
theorem test_transfer_tick :
    (stateOf (step (withTick producing takeInputs))).map (fun s => (s.regs, s.rem, s.sent)) =
      some (regs 0 0 0, 1, [true, true]) := by decide +kernel
/-- T11: a reset in the middle of NEXT keeps the bits transferred and abandons the rest. -/
theorem test_reset_mid_next :
    stateOf (step (withTick producing resetInputs)) = some { State.reset with sent := [true] } := by decide
/-- T11: a command offered in the middle of INIT is not accepted. -/
theorem test_offer_while_busy : acceptedNow (withTick mixing (offer 0#4 0#64 0)) = none := by decide
/-- Outputs at reset (R33): ready, not busy, nothing offered; `ks_bit` of a producing block is OUTBIT. -/
theorem test_outputs :
    (outputs false State.reset).cmdReady = true ∧ (outputs true State.reset).cmdReady = false ∧
    (outputs false producing).ksBit = true ∧ (outputs false producing).busy = true := by decide

/-! ### The host's side -/

/-- T8: the text key "ABCDEFGH". -/
theorem test_key_of_text :
    Codec.keyOfText [0x41, 0x42, 0x43, 0x44, 0x45, 0x46, 0x47, 0x48] = .ok 0x4142434445464748#64 := by rfl
/-- S5: a 9-character key fails. -/
theorem test_key_of_nine : Codec.keyOfText (List.replicate 9 0x41) = .error .invalidKeyLength := by rfl
/-- T12: 16 bits pack into 4B 0A, and "Hi" encrypts to 03 63. -/
theorem test_t12 :
    Codec.packBytes [false, true, false, false, true, false, true, true, false, false, false, false, true, false, true,
      false] = some [0x4B#8, 0x0A#8] ∧
    Codec.xorBytes [0x48#8, 0x69#8] [0x4B#8, 0x0A#8] = some [0x03#8, 0x63#8] := by decide
/-- P1's listing line, with its comment, gives the word beside it. -/
theorem test_assemble_next :
    (Assembler.assemble 8 (line ['N', 'E', 'X', 'T', ' ', '8', ' ', ';', ' ', 'x'])).map (Option.map joinWord) =
      .ok (some 0x0800000000000000002) := by rfl
/-- P3's INIT, mnemonic in lower case. -/
theorem test_assemble_init :
    (Assembler.assemble 8 (line ['i', 'n', 'i', 't', ' ', '0', 'x', '1', 'F'])).map (Option.map joinWord) =
      .ok (some 0x1F1) := by rfl
/-- P1's raw opcode. -/
theorem test_assemble_op :
    (Assembler.assemble 8 (line ['.', 'o', 'p', ' ', '0', 'x', '5'])).map (Option.map joinWord) = .ok (some 0x5) := by rfl
/-- P4's INIT.TEXT. -/
theorem test_assemble_text :
    (Assembler.assemble 8 (line ['I', 'N', 'I', 'T', '.', 'T', 'E', 'X', 'T', ' ', '"', 'A', 'B', 'C', 'D', 'E', 'F', 'G',
      'H', '"'])).map (Option.map joinWord) = .ok (some 0x0041424344454647481) := by rfl
/-- A count of 256 is out of range for COUNT_WIDTH = 8. -/
theorem test_assemble_out_of_range :
    Assembler.assemble 8 (line ['N', 'E', 'X', 'T', ' ', '2', '5', '6']) = .error .literalOutOfRange := by rfl

/-- R64: INIT.BYTES with no units has other than 8 of them. -/
theorem test_assemble_no_bytes :
    Assembler.assemble 8 (line ['I', 'N', 'I', 'T', '.', 'B', 'Y', 'T', 'E', 'S']) = .error .invalidKeyLength := by rfl

/-! ### The observation of a run -/

/-- R87, T1 and T3: INIT 0 and INIT 1 show the same error and no bits, and differ in the final abstract state. -/
theorem test_observation_has_the_final_state :
    observeRun 8 [.init 0#64] = { commands := [(0#2, [])], final := ⟨regs 0 0 0, true, 0#2⟩ } ∧
    observeRun 8 [.init 1#64] = { commands := [(0#2, [])], final := ⟨regs 0x02730 0x1B6C00 0x400000, true, 0#2⟩ } := by
  decide +kernel

/-! ### Witnesses: the hypotheses of each statement can be met together -/

theorem witness_ResetTickRestoresResetState :
    (withTick producing resetInputs).moves = .tick resetInputs :: [] ∧ resetInputs.rst = true := by decide
theorem witness_ResetAbandonsCommandInProgress :
    (withTick producing resetInputs).phase ≠ .idle ∧ (withTick producing resetInputs).moves = .tick resetInputs :: [] ∧
    resetInputs.rst = true ∧ ∀ i ∈ [Instr.next 3, .nop], i = .next 3 ∨ i = .nop := by decide
theorem witness_ResetAbandonsCommandInProgress_noInit : ∀ k, Instr.init k ∉ [Instr.next 3, .nop] := by
  intro k
  simp
theorem witness_NopOnlyClearsErr :
    (withTick State.reset (offer 0#4 5#64 6)).phase = .idle ∧
    (withTick State.reset (offer 0#4 5#64 6)).moves = .tick (offer 0#4 5#64 6) :: [] ∧
    (offer 0#4 5#64 6).rst = false ∧ (offer 0#4 5#64 6).cmdValid = true ∧ decodePort 8 (offer 0#4 5#64 6).cmd = .nop := by
  decide
/-- The trajectory of K = 1: m j after the first j key bits, w i after i warm-up ticks. -/
theorem witness_InitMixesKeyThenWarmsUp :
    State.reset.phase = .idle ∧
    mixSequence ((keySequence 1#64).take 0) zeroRegs = { r1 := 0#19, r2 := 0#22, r3 := 0#23 } ∧
    (∀ j, j < 64 → mixSequence ((keySequence 1#64).take (j + 1)) zeroRegs =
      mixTick ((1#64 : Key).getLsbD (63 - j)) (mixSequence ((keySequence 1#64).take j) zeroRegs)) ∧
    clockTicks 0 (mixSequence ((keySequence 1#64).take 64) zeroRegs) =
      mixSequence ((keySequence 1#64).take 64) zeroRegs ∧
    ∀ i, i < 100 → clockTicks (i + 1) (mixSequence ((keySequence 1#64).take 64) zeroRegs) =
      warmTick (clockTicks i (mixSequence ((keySequence 1#64).take 64) zeroRegs)) := by decide +kernel
theorem witness_InitAcceptanceStep :
    (withTick ready (offer 1#4 7#64 9)).phase = .idle ∧
    (withTick ready (offer 1#4 7#64 9)).moves = .tick (offer 1#4 7#64 9) :: [] ∧ (offer 1#4 7#64 9).rst = false ∧
    (offer 1#4 7#64 9).cmdValid = true ∧ decodePort 8 (offer 1#4 7#64 9).cmd = .init 7#64 := by decide
theorem witness_NextEmitsKeystream :
    ready.phase = .idle ∧ ready.initialized = true ∧ clockTicks 0 ready.regs = ready.regs ∧
    ∀ i, i < 3 → clockTicks (i + 1) ready.regs = clockTick (clockTicks i ready.regs) := by decide +kernel
theorem witness_NextWithoutKeyOrBits :
    State.reset.phase = .idle ∧ State.reset.initialized = false ∧ ready.phase = .idle ∧ ready.initialized = true := by
  decide
/-- One offer for each of the three cases: no key, no bits, and the largest count. -/
theorem witness_NextAcceptanceStep :
    (withTick State.reset (offer 2#4 0#64 0)).phase = .idle ∧
    (withTick ready (offer 2#4 0#64 0)).moves = .tick (offer 2#4 0#64 0) :: [] ∧
    (offer 2#4 0#64 0).rst = false ∧ (offer 2#4 0#64 0).cmdValid = true ∧ decodePort 8 (offer 2#4 0#64 0).cmd = .next 0 ∧
    (offer 2#4 0#64 255).rst = false ∧ (offer 2#4 0#64 255).cmdValid = true ∧
    decodePort 8 (offer 2#4 0#64 255).cmd = .next 255 := by decide
theorem witness_ReservedRaisesIllegalCommand :
    (withTick State.reset (offer 15#4 0#64 0)).phase = .idle ∧
    (withTick State.reset (offer 15#4 0#64 0)).moves = .tick (offer 15#4 0#64 0) :: [] ∧
    (offer 15#4 0#64 0).rst = false ∧ (offer 15#4 0#64 0).cmdValid = true ∧
    decodePort 8 (offer 15#4 0#64 0).cmd = .reservedF ∧ decodePort 8 (offer 3#4 0#64 0).cmd = .reserved3 := by decide
theorem witness_EveryCommandCompletesWithItsFrame :
    State.reset.phase = .idle ∧ (∀ k, Instr.next 1 ≠ .init k) ∧ (∀ k, Instr.nop ≠ .init k) ∧ (∀ c, Instr.nop ≠ .next c) := by
  simp [State.reset]
theorem witness_BusyBlockAcceptsNothing : mixing.phase ≠ .idle := by decide
theorem witness_ErrorsArePrecise :
    acceptedNow (withCommand State.reset 2#4 0#64 1) = some (.next 1) ∧
    acceptedNow (withTick ready (offer 9#4 0#64 1)) = some .reserved9 ∧
    (stateOf (step (withCommand State.reset 2#4 0#64 1))).map (·.err) = some errNotInitialized ∧
    (stateOf (step (withTick ready (offer 9#4 0#64 1)))).map (·.err) = some errIllegalCommand ∧
    errNotInitialized ≠ errNone ∧ errIllegalCommand ≠ errNone := by decide
theorem witness_NotInitializedExactlyBeforeFirstInit :
    (stateOf (runCommands [.nop, .reserved7] State.reset)).map (fun s => (s.initialized, s.err)) = some (false, 2#2) := by
  decide
theorem witness_DecodeOfEncode :
    (Instr.next 255).wellFormed 8 = true ∧ (Instr.next 0).wellFormed 1 = true ∧
    (Instr.init 0xFFFFFFFFFFFFFFFF#64).wellFormed 1 = true := by decide
theorem witness_EveryCommandWordDecodes :
    0xFFFFFFFFFFFFFFFFFFF < 2 ^ (68 + 8) ∧ decodeWord 8 0xFFFFFFFFFFFFFFFFFF1 = .ok (.init 0xFFFFFFFFFFFFFFFF#64) := by
  exact ⟨by decide, rfl⟩
theorem witness_UnreadFieldsDoNotMatter :
    (⟨1#4, 5#64, 1⟩ : CommandPort).op = (⟨1#4, 5#64, 2⟩ : CommandPort).op ∧
    (⟨1#4, 5#64, 1⟩ : CommandPort).key = (⟨1#4, 5#64, 2⟩ : CommandPort).key ∧
    (⟨2#4, 5#64, 1⟩ : CommandPort).count = (⟨2#4, 6#64, 1⟩ : CommandPort).count ∧ State.reset.phase = .idle := by decide
theorem witness_StepRunsTheDecodedCommand :
    (withCommand ready 2#4 0#64 3).moves = .command ⟨2#4, 0#64, 3⟩ :: [] ∧ (withCommand ready 2#4 0#64 3).phase = .idle ∧
    (withCommand mixing 0#4 0#64 0).moves = .command ⟨0#4, 0#64, 0⟩ :: [] ∧ (withCommand mixing 0#4 0#64 0).phase ≠ .idle ∧
    (withTick mixing takeInputs).moves = .tick takeInputs :: [] ∧ takeInputs.rst = false ∧ ready.moves = [] := by decide
theorem witness_PlacedWordRunsNext :
    mixing.countWidth = Config.countWidth ∧ decodeTableWord 8 0xF1 = some (.init 0xF#64) := by decide
theorem witness_ShiftInDropsBitZero : 0 < 19 ∧ 18 < 19 ∧ 0 < (1 : Nat) := by decide
theorem witness_FixedPrioritySelect :
    ((regs 0x100 0 0x400).r1.getLsbD 8 = maj true false true) ∧
    ((regs 0 0x400 0x400).r1.getLsbD 8 ≠ maj false true true) ∧
    ((regs 0 0x400 0x400).r2.getLsbD 10 = maj false true true) := by decide +kernel
theorem witness_MinorityBitPicksR2 :
    ¬((regs 0x100 0 0x400).r2.getLsbD 10 = (regs 0x100 0 0x400).r3.getLsbD 10 ∧
      (regs 0x100 0 0x400).r1.getLsbD 8 ≠ (regs 0x100 0 0x400).r2.getLsbD 10) ∧
    (regs 0x100 0 0).r2.getLsbD 10 = (regs 0x100 0 0).r3.getLsbD 10 ∧
    (regs 0x100 0 0).r1.getLsbD 8 ≠ (regs 0x100 0 0).r2.getLsbD 10 := by decide +kernel
theorem witness_R3NeverAdvancesAfterMixing :
    (stateOf (step (withTick mixing quietInputs))).map (fun t => decide (t.regs.r3 ≠ mixing.regs.r3)) = some true ∧
    State.reset.phase = .idle ∧
    (stateOf (exec (.init 0#64) State.reset)).map (fun t => t.regs.r3) = some 0#23 := by decide +kernel
theorem witness_ZeroKeyGivesZeroKeystream : ready.phase = .idle := by decide
/-- J = 3, and the boundary J = 63. -/
theorem witness_MixPhaseTick :
    mixing.phase = .mix ∧ mixing.j.toNat ≤ 63 ∧ (withTick mixing quietInputs).moves = .tick quietInputs :: [] ∧
    quietInputs.rst = false ∧ mixing.key.getLsbD (63 - mixing.j.toNat) = true ∧ mixingLast.phase = .mix ∧
    mixingLast.j.toNat ≤ 63 ∧ mixingLast.key.getLsbD (63 - mixingLast.j.toNat) = true := by decide
theorem witness_WarmPhaseTick :
    warming.phase = .warm ∧ warming.j = 99#7 ∧ 98#7 ≠ 99#7 ∧ 98#7 ≠ 127#7 ∧ (withTick warming quietInputs).moves = .tick quietInputs :: [] ∧ quietInputs.rst = false := by
  decide
/-- REM = 2, the boundary REM = 1, and the largest REM. -/
theorem witness_KeystreamTransferTick :
    producing.phase = .gen ∧ 1 ≤ producing.rem ∧ producing.rem < 2 ^ producing.countWidth ∧
    (withTick producing takeInputs).moves = .tick takeInputs :: [] ∧ takeInputs.rst = false ∧ takeInputs.ksReady = true ∧
    1 < 2 ^ producing.countWidth ∧ 255 < 2 ^ producing.countWidth := by decide
theorem witness_HoldTickChangesNothing :
    producing.phase = .gen ∧ (withTick producing quietInputs).moves = .tick quietInputs :: [] ∧ quietInputs.rst = false ∧
    quietInputs.ksReady = false := by decide
theorem witness_IdleHoldsItsState :
    ready.phase = .idle ∧ (withTick ready takeInputs).moves = .tick takeInputs :: [] ∧ takeInputs.rst = false ∧
    takeInputs.cmdValid = false ∧ ready.moves = [] := by decide
theorem witness_CommandPortIgnoredWhileBusy :
    producing.phase ≠ .idle ∧ (offer 1#4 5#64 0).rst = takeInputs.rst ∧ (offer 1#4 5#64 0).ksReady = takeInputs.ksReady := by
  decide
theorem witness_OutputPortValues : producing.phase = .gen ∧ ready.phase ≠ .gen := by decide
/-- States of every PHASE meet the invariant, and each takes a step. -/
theorem witness_EveryStepKeepsTheInvariant :
    (withTick mixing takeInputs).Inv ∧ warming.Inv ∧ producing.Inv ∧ ready.Inv ∧
    step (withTick mixing takeInputs) = .next (tick takeInputs ((withTick mixing takeInputs).setMoves [])) := by
  refine ⟨?_, ?_, ?_, ?_, rfl⟩ <;>
    simp [State.Inv, State.PhaseInv, withTick, mixing, warming, producing, ready, State.reset, Config.countWidth, errNone]
/-- A step of each kind that writes the registers: reset, INIT and NEXT as one step, INIT's acceptance, and a tick of each busy
PHASE. -/
theorem witness_OnlyTheseStepsWriteRegisters :
    [withTick ready resetInputs, withCommand ready 1#4 1#64 0, withCommand ready 2#4 0#64 5, withTick ready (offer 1#4 1#64 0),
     withTick mixing quietInputs, withTick warming quietInputs, withTick producing takeInputs].map
      (fun s => (stateOf (step s)).map fun t => decide (t.regs ≠ s.regs)) = List.replicate 7 (some true) := by decide +kernel
/-- INITIALIZED rises by the last warm-up tick and by INIT run as one step, and falls by reset and INIT's acceptance. -/
theorem witness_OnlyTheseStepsWriteInitialized :
    [withTick warming quietInputs, withCommand State.reset 1#4 0#64 0, withTick ready resetInputs,
     withTick ready (offer 1#4 1#64 0)].map (fun s => (s.initialized, (stateOf (step s)).map (·.initialized))) =
      [(false, some true), (false, some true), (true, some false), (true, some false)] := by decide +kernel
theorem witness_ErrIsWrittenAtAcceptanceOnly :
    acceptedNow (withCommand ready 12#4 0#64 0) = some .reservedC ∧ resetNow (withTick ready resetInputs) = true ∧
    acceptedNow (withTick mixing takeInputs) = none ∧ resetNow (withTick mixing takeInputs) = false := by decide
theorem witness_KeyIsWrittenByInitAndReset :
    acceptedNow (withTick ready (offer 1#4 7#64 0)) = some (.init 7#64) ∧
    acceptedNow (withCommand ready 1#4 7#64 0) = some (.init 7#64) ∧ resetNow (withTick ready resetInputs) = true ∧
    acceptedNow (withTick mixing takeInputs) = none ∧ resetNow (withTick mixing takeInputs) = false := by decide
theorem witness_KeyIsHiddenOutsideMix : ready.phase ≠ .mix ∧ warming.phase ≠ .mix ∧ producing.phase ≠ .mix := by decide
theorem witness_BitsAreSentInOrderByTransfersOnly :
    (stateOf (step (withTick producing takeInputs))).map (·.sent) = some [true, true] ∧
    (stateOf (step (withCommand ready 2#4 0#64 3))).map (·.sent) = some [true, false, false] := by decide +kernel
theorem witness_CountWidthNeverChanges :
    (stateOf (step (withTick { ready with countWidth := 5 } resetInputs))).map (·.countWidth) = some 5 := by decide
theorem witness_NextContinuesTheStream :
    ready.phase = .idle ∧ ready.initialized = true ∧
    ∀ i ∈ [Instr.nop, .next 0, .reserved3, .reservedF], i = .nop ∨ i = .next 0 ∨ 3 ≤ i.opcode.toNat := by decide
theorem witness_InitForgetsTheEarlierState : State.reset.phase = .idle ∧ ready.phase = .idle := by decide
theorem witness_HoldsDoNotChangeTheStream :
    producing.phase = .gen ∧ (∀ p ∈ [takeInputs, takeInputs], p.rst = false ∧ p.cmdValid = false) ∧
    (∀ p ∈ [quietInputs, takeInputs, quietInputs, takeInputs], p.rst = false ∧ p.cmdValid = false) ∧
    [takeInputs, takeInputs].countP (·.ksReady) = [quietInputs, takeInputs, quietInputs, takeInputs].countP (·.ksReady) := by
  decide
/-- Run lengths of each clause: 63, 64, 163 and 164 ticks. -/
theorem witness_InitTakes164Ticks :
    (∀ n ∈ [63, 64, 163, 164], (List.replicate n takeInputs).length ≤ 164) ∧
    ∀ n, ∀ p ∈ List.replicate n takeInputs, p.rst = false := by
  refine ⟨by decide, fun n p hp => ?_⟩
  rw [List.eq_of_mem_replicate hp]
  rfl
theorem witness_NextSendsOneBitPerTransfer :
    ready.phase = .idle ∧ ready.initialized = true ∧ 255 < 2 ^ ready.countWidth ∧
    (∀ p ∈ [takeInputs, quietInputs, offer 1#4 0#64 0], p.rst = false) ∧
    [takeInputs, quietInputs, offer 1#4 0#64 0].countP (·.ksReady) < 255 := by decide
theorem witness_InitLevelsAgree :
    ready.phase = .idle ∧ ready.j = 0#7 ∧ (offer 1#4 7#64 0).rst = false ∧ (offer 1#4 7#64 0).cmdValid = true ∧
    decodePort ready.countWidth (offer 1#4 7#64 0).cmd = .init 7#64 ∧ (List.replicate 164 quietInputs).length = 164 ∧
    ∀ q ∈ List.replicate 164 quietInputs, q.rst = false := by
  refine ⟨rfl, rfl, rfl, rfl, rfl, rfl, fun q hq => ?_⟩
  rw [List.eq_of_mem_replicate hq]
  rfl
theorem witness_NextLevelsAgree :
    ready.phase = .idle ∧ ready.rem = 0 ∧ ready.initialized = true ∧ (offer 2#4 0#64 2).rst = false ∧
    (offer 2#4 0#64 2).cmdValid = true ∧ decodePort ready.countWidth (offer 2#4 0#64 2).cmd = .next 2 ∧
    (∀ x ∈ [takeInputs, quietInputs] ++ [takeInputs], x.rst = false) ∧ takeInputs.ksReady = true ∧
    ([takeInputs, quietInputs] ++ [takeInputs]).countP (·.ksReady) = 2 := by decide
theorem witness_OneTickCommandsAgree :
    (withTick ready (offer 2#4 0#64 0)).phase = .idle ∧
    (withTick ready (offer 2#4 0#64 0)).moves = .tick (offer 2#4 0#64 0) :: [] ∧ (offer 2#4 0#64 0).rst = false ∧
    (offer 2#4 0#64 0).cmdValid = true ∧ decodePort ready.countWidth (offer 2#4 0#64 0).cmd = .next 0 ∧
    decodePort State.reset.countWidth (offer 2#4 0#64 9).cmd = .next 9 ∧ State.reset.initialized = false := by decide
/-- A run that starts and ends in IDLE: an offered NEXT 1, a hold and the transfer, with commands offered meanwhile. -/
theorem witness_TickRunsAreCommandRuns :
    ready.Inv ∧ ready.phase = .idle ∧
    (∀ p ∈ [offer 2#4 0#64 1, quietInputs, offer 1#4 3#64 0, offer 9#4 0#64 0], p.rst = false) ∧
    (ticks [offer 2#4 0#64 1, quietInputs, offer 1#4 3#64 0, offer 9#4 0#64 0] ready).phase = .idle ∧
    acceptedAlong [offer 2#4 0#64 1, quietInputs, offer 1#4 3#64 0, offer 9#4 0#64 0] ready = [.next 1, .reserved9] := by
  refine ⟨?_, rfl, by decide, by decide +kernel, by decide +kernel⟩
  simp [State.Inv, State.PhaseInv, ready, State.reset, Config.countWidth]
/-- The same run, and an ended state with an idle tick, a reset and a new run's command left. -/
theorem witness_EndedRunShowsItsCommands :
    ready.Inv ∧ ready.phase = .idle ∧
    (∀ p ∈ [offer 2#4 0#64 1, quietInputs, offer 1#4 3#64 0, offer 9#4 0#64 0], p.rst = false) ∧
    (ticks [offer 2#4 0#64 1, quietInputs, offer 1#4 3#64 0, offer 9#4 0#64 0] ready).phase = .idle ∧
    ({ ready with moves := [.tick quietInputs, .tick { quietInputs with rst := true }, .command ⟨0#4, 0#64, 0⟩] } :
      State).Ended ∧
    resetNow { ready with moves := [.tick quietInputs] } = false := by
  refine ⟨?_, rfl, by decide, by decide +kernel, ⟨rfl, rfl⟩, rfl⟩
  simp [State.Inv, State.PhaseInv, ready, State.reset, Config.countWidth]
theorem witness_EnginesAreIndependent :
    (stepAt 1 [State.reset, withCommand ready 12#4 0#64 0]).map (fun b => b.map (·.err)) = some [0#2, 2#2] := by decide
theorem witness_KeyBufferBitOrder :
    (List.replicate 8 0x41#8).length = 8 ∧ (List.replicate 9 0x41#8).length ≠ 8 ∧
    ([] : List (BitVec 8)).length ≠ 8 := by decide
theorem witness_KeystreamPacksMsbFirst : (List.replicate 16 true).length = 8 * 2 := by decide
theorem witness_DecryptionUndoesEncryption : State.reset.phase = .idle ∧ ready.phase = .idle := by decide
/-- The boundaries of each literal's range, of the length of a key and of a unit's range. -/
theorem witness_AssembledLinesDecode :
    (List.replicate 8 0xFF#8).length = 8 ∧ (List.replicate 9 0x41).length ≠ 8 ∧ (List.replicate 7 0x41).length ≠ 8 ∧
    (0x100 :: List.replicate 7 0x41).length = 8 ∧ (∃ c ∈ 0x100 :: List.replicate 7 0x41, 256 ≤ c) ∧
    1 ≤ 8 ∧ 2 ^ 64 - 1 < 2 ^ 64 ∧ ¬2 ^ 64 < 2 ^ 64 ∧ 255 < 2 ^ 8 ∧ ¬256 < 2 ^ 8 ∧ 15 < 16 ∧ 16 ≤ 16 := by decide

end Sys2Proof.Tests
end

section
/-! PROOFS. What no tick and no command writes: COUNT_WIDTH, and the host's moves during a tick; then the statements on the
scope of the model (00_scope.md R10, R16). -/

namespace Sys2Proof.Machine

/-! ### COUNT_WIDTH is written by no operation (R10) -/

@[simp] theorem nextEffect_countWidth (c : Nat) (s : State) : (nextEffect c s).countWidth = s.countWidth := by
  rcases Bool.eq_false_or_eq_true s.initialized with hi | hi
  · simp [nextEffect_of_initialized c hi]
  · simp [nextEffect_of_not_initialized c hi]

@[simp] theorem acceptNext_countWidth (c : Nat) (s : State) : (acceptNext c s).countWidth = s.countWidth := by
  rcases Bool.eq_false_or_eq_true s.initialized with hi | hi
  · by_cases hc : c = 0
    · subst hc
      simp [acceptNext_zero hi]
    · simp [acceptNext_pos hi hc]
  · simp [acceptNext_of_not_initialized c hi]

@[simp] theorem commandEffect_countWidth (i : Instr) (s : State) : (commandEffect i s).countWidth = s.countWidth := by
  cases i with
  | next c => exact nextEffect_countWidth c s
  | nop | init | reserved3 | reserved4 | reserved5 | reserved6 | reserved7 => rfl
  | reserved8 | reserved9 | reservedA | reservedB | reservedC | reservedD | reservedE | reservedF => rfl

@[simp] theorem accept_countWidth (i : Instr) (s : State) : (accept i s).countWidth = s.countWidth := by
  cases i with
  | next c => exact acceptNext_countWidth c s
  | nop | init | reserved3 | reserved4 | reserved5 | reserved6 | reserved7 => rfl
  | reserved8 | reserved9 | reservedA | reservedB | reservedC | reservedD | reservedE | reservedF => rfl

@[simp] theorem idleTick_countWidth (p : Inputs) (s : State) : (idleTick p s).countWidth = s.countWidth := by
  unfold idleTick
  split
  · exact accept_countWidth _ s
  · rfl

@[simp] theorem mixPhaseTick_countWidth (s : State) : (mixPhaseTick s).countWidth = s.countWidth := by
  by_cases hj : s.j = 63#7
  · simp [mixPhaseTick_last hj]
  · simp [mixPhaseTick_more hj]

@[simp] theorem warmPhaseTick_countWidth (s : State) : (warmPhaseTick s).countWidth = s.countWidth := by
  by_cases hj : s.j = 99#7
  · simp [warmPhaseTick_last hj]
  · simp [warmPhaseTick_more hj]

@[simp] theorem transferTick_countWidth (s : State) : (transferTick s).countWidth = s.countWidth := by
  by_cases hr : s.rem = 1
  · simp [transferTick_last hr]
  · simp [transferTick_more hr]

@[simp] theorem genPhaseTick_countWidth (p : Inputs) (s : State) : (genPhaseTick p s).countWidth = s.countWidth := by
  unfold genPhaseTick
  split
  · exact transferTick_countWidth s
  · rfl

@[simp] theorem sequencerTick_countWidth (p : Inputs) (s : State) : (sequencerTick p s).countWidth = s.countWidth := by
  cases hp : s.phase with
  | idle => simp [sequencerTick_idle p hp]
  | mix => simp [sequencerTick_mix p hp]
  | warm => simp [sequencerTick_warm p hp]
  | gen => simp [sequencerTick_gen p hp]

@[simp] theorem tick_countWidth (p : Inputs) (s : State) : (tick p s).countWidth = s.countWidth := by
  cases hr : p.rst with
  | true => simp [tick_reset s hr]
  | false => simp [tick_run s hr]

/-- Settles O45: a step is a command's effect or a tick, and neither writes COUNT_WIDTH. -/
theorem countWidthNeverChanges : Obligations.CountWidthNeverChanges := by
  intro s t h
  obtain ⟨c, rest, -, -, rfl⟩ | ⟨p, ms, -, -, rfl⟩ := step_cases h
  · simp
  · simp

/-! ### A step is one move of the host (R16) -/

/-- A tick neither uses up nor adds a move of the host: it is `step` that does. -/
@[simp] theorem tick_moves (p : Inputs) (s : State) : (tick p s).moves = s.moves :=
  calc (tick p s).moves = ((tick p s).setMoves s.moves).moves := congrArg State.moves (tick_setMoves p s s.moves)
    _ = s.moves := rfl

/-- Settles O19: the four kinds of the host's next move, each by its step lemma; a tick without reset is the sequencer's. -/
theorem stepRunsTheDecodedCommand : Obligations.StepRunsTheDecodedCommand := by
  refine ⟨?command, ?waiting, ?tick, ?quiet⟩
  case command =>
    intro s c rest hm hp
    exact step_command hm hp
  case waiting =>
    intro s c rest hm hp
    have hrun : tick (waitingInputs c) s = sequencerTick (waitingInputs c) s := tick_run s rfl
    rw [← hrun]
    exact ⟨step_waiting hm hp, tick_moves _ s⟩
  case tick =>
    intro s p rest hm hr
    rw [step_tick hm, tick_run _ hr]
    rfl
  case quiet =>
    intro s hm
    rw [step_quiet hm, tick_run s rfl]

end Sys2Proof.Machine
end

section
/-! PROOFS. What a command, its acceptance step and a tick of each busy phase write and leave, field by field; then the one
inversion of a step into the events of the model, from which the statements on the state (10_state.md) follow. -/

namespace Sys2Proof.Machine

/-! ### A command's effect and its acceptance step, in three cases -/

/-- A command that is carried out is INIT, or a NEXT of an initialised block, or it writes ERR and nothing else: NOP, the
reserved opcodes and a NEXT without a key (R79 to R82). -/
theorem commandEffect_cases (i : Instr) (s : State) :
    (∃ k, i = .init k ∧ commandEffect i s = initEffect k s) ∨
    (∃ c, i = .next c ∧ s.initialized = true ∧ commandEffect i s = produce c (carryOut s)) ∨
    ((∀ k, i ≠ .init k) ∧ commandEffect i s = s.setErr (acceptanceCode s.initialized i)) := by
  cases i with
  | init k => exact .inl ⟨k, rfl, rfl⟩
  | next c =>
    cases hi : s.initialized with
    | true => exact .inr (.inl ⟨c, rfl, rfl, nextEffect_of_initialized c hi⟩)
    | false => exact .inr (.inr ⟨by simp, nextEffect_of_not_initialized c hi⟩)
  | nop | reserved3 | reserved4 | reserved5 | reserved6 | reserved7 | reserved8 | reserved9 | reservedA | reservedB
  | reservedC | reservedD | reservedE | reservedF => exact .inr (.inr ⟨by simp, commandEffect_of_errOnly (by simp) (by simp)⟩)

/-- The acceptance step starts INIT, or a NEXT that has bits to send, or writes ERR and nothing else (R79 to R82). -/
theorem accept_cases (i : Instr) (s : State) :
    (∃ k, i = .init k ∧ accept i s = acceptInit k s) ∨
    (∃ c, i = .next c ∧ s.initialized = true ∧ c ≠ 0 ∧ accept i s = ((carryOut s).setRem c).setPhase .gen) ∨
    ((∀ k, i ≠ .init k) ∧ accept i s = s.setErr (acceptanceCode s.initialized i)) := by
  cases i with
  | init k => exact .inl ⟨k, rfl, rfl⟩
  | next c =>
    cases hi : s.initialized with
    | true =>
      by_cases hc : c = 0
      · subst hc
        exact .inr (.inr ⟨by simp, acceptNext_zero hi⟩)
      · exact .inr (.inl ⟨c, rfl, rfl, hc, acceptNext_pos hi hc⟩)
    | false => exact .inr (.inr ⟨by simp, acceptNext_of_not_initialized c hi⟩)
  | nop | reserved3 | reserved4 | reserved5 | reserved6 | reserved7 | reserved8 | reserved9 | reservedA | reservedB
  | reservedC | reservedD | reservedE | reservedF => exact .inr (.inr ⟨by simp, rfl⟩)

@[simp] theorem initEffect_initialized (k : Key) (s : State) : (initEffect k s).initialized = true := rfl
@[simp] theorem initEffect_key (k : Key) (s : State) : (initEffect k s).key = k := rfl

@[simp] theorem acceptInit_initialized (k : Key) (s : State) : (acceptInit k s).initialized = false := rfl
@[simp] theorem acceptInit_key (k : Key) (s : State) : (acceptInit k s).key = k := rfl

theorem commandEffect_err (i : Instr) (s : State) : (commandEffect i s).err = acceptanceCode s.initialized i := by
  obtain ⟨k, rfl, h⟩ | ⟨c, rfl, hi, h⟩ | ⟨-, h⟩ := commandEffect_cases i s
  · rw [h]; rfl
  · rw [h, hi]; rfl
  · rw [h]; rfl

theorem accept_err (i : Instr) (s : State) : (accept i s).err = acceptanceCode s.initialized i := by
  obtain ⟨k, rfl, h⟩ | ⟨c, rfl, hi, -, h⟩ | ⟨-, h⟩ := accept_cases i s
  · rw [h]; rfl
  · rw [h, hi]; rfl
  · rw [h]; rfl

theorem acceptanceCode_ne_reserved (b : Bool) (i : Instr) : acceptanceCode b i ≠ 3#2 := by
  cases i with
  | next c =>
    cases b with
    | true => exact (by decide : errNone ≠ 3#2)
    | false => exact (by decide : errNotInitialized ≠ 3#2)
  | nop | init => exact (by decide : errNone ≠ 3#2)
  | reserved3 | reserved4 | reserved5 | reserved6 | reserved7 | reserved8 | reserved9 | reservedA | reservedB
  | reservedC | reservedD | reservedE | reservedF => exact (by decide : errIllegalCommand ≠ 3#2)

theorem commandEffect_key_of_not_init {i : Instr} (hi : ∀ k, i ≠ .init k) (s : State) : (commandEffect i s).key = s.key := by
  obtain ⟨k, rfl, -⟩ | ⟨c, -, -, h⟩ | ⟨-, h⟩ := commandEffect_cases i s
  · exact absurd rfl (hi k)
  · rw [h]; rfl
  · rw [h]; rfl

theorem accept_key_of_not_init {i : Instr} (hi : ∀ k, i ≠ .init k) (s : State) : (accept i s).key = s.key := by
  obtain ⟨k, rfl, -⟩ | ⟨c, -, -, -, h⟩ | ⟨-, h⟩ := accept_cases i s
  · exact absurd rfl (hi k)
  · rw [h]; rfl
  · rw [h]; rfl

/-! ### The ticks of the busy phases, field by field -/

@[simp] theorem mixPhaseTick_regs (s : State) : (mixPhaseTick s).regs = mixTick (keyBit s.key s.j) s.regs := by
  unfold mixPhaseTick; split <;> rfl
@[simp] theorem mixPhaseTick_initialized (s : State) : (mixPhaseTick s).initialized = s.initialized := by
  unfold mixPhaseTick; split <;> rfl
@[simp] theorem mixPhaseTick_err (s : State) : (mixPhaseTick s).err = s.err := by
  unfold mixPhaseTick; split <;> rfl
@[simp] theorem mixPhaseTick_key (s : State) : (mixPhaseTick s).key = s.key := by
  unfold mixPhaseTick; split <;> rfl

@[simp] theorem warmPhaseTick_regs (s : State) : (warmPhaseTick s).regs = warmTick s.regs := by
  unfold warmPhaseTick; split <;> rfl
@[simp] theorem warmPhaseTick_err (s : State) : (warmPhaseTick s).err = s.err := by
  unfold warmPhaseTick; split <;> rfl
@[simp] theorem warmPhaseTick_key (s : State) : (warmPhaseTick s).key = s.key := by
  unfold warmPhaseTick; split <;> rfl

@[simp] theorem transferTick_regs (s : State) : (transferTick s).regs = clockTick s.regs := by
  unfold transferTick; split <;> rfl
@[simp] theorem transferTick_initialized (s : State) : (transferTick s).initialized = s.initialized := by
  unfold transferTick; split <;> rfl
@[simp] theorem transferTick_err (s : State) : (transferTick s).err = s.err := by
  unfold transferTick; split <;> rfl
@[simp] theorem transferTick_key (s : State) : (transferTick s).key = s.key := by
  unfold transferTick; split <;> rfl

/-! ### The events of a step -/

theorem inputsNow_of_transacted {s : State} {c : CommandPort} {rest : List HostMove} (hm : s.moves = .command c :: rest)
    (hp : s.phase = .idle) : inputsNow s = none := by
  simp [inputsNow, hm, hp]

theorem transactedNow_of_command {s : State} {c : CommandPort} {rest : List HostMove} (hm : s.moves = .command c :: rest)
    (hp : s.phase = .idle) : transactedNow s = some (decodePort s.countWidth c) := by
  simp [transactedNow, fetch, hm, hp]

theorem resetNow_of_inputs {s : State} {p : Inputs} (h : inputsNow s = some p) : resetNow s = p.rst := by
  simp [resetNow, h]

theorem readyNow_of_inputs {s : State} {p : Inputs} (h : inputsNow s = some p) : readyNow s = (p.ksReady && !p.rst) := by
  simp [readyNow, h]

theorem tickAcceptedNow_of_inputs {s : State} {p : Inputs} (h : inputsNow s = some p) : tickAcceptedNow s =
    if p.rst = false ∧ p.cmdValid = true ∧ s.phase = .idle then some (decodePort s.countWidth p.cmd) else none := by
  simp [tickAcceptedNow, h]

theorem acceptedNow_of_transacted {s : State} {i : Instr} (h : transactedNow s = some i) : acceptedNow s = some i := by
  simp [acceptedNow, h]

theorem acceptedNow_of_not_transacted {s : State} (h : transactedNow s = none) : acceptedNow s = tickAcceptedNow s := by
  simp [acceptedNow, h]

/-- A command that comes through the port has a count in the port's range (R61). -/
theorem decodePort_wellFormed (w : Nat) (p : CommandPort) : (decodePort w p).wellFormed w = true := by
  have hcount : portCount w p.count < 2 ^ w := Nat.mod_lt _ (by positivity)
  unfold decodePort
  split <;> simp [Instr.wellFormed, hcount]

theorem tickAcceptedNow_wellFormed {s : State} {i : Instr} (h : tickAcceptedNow s = some i) :
    i.wellFormed s.countWidth = true := by
  unfold tickAcceptedNow at h
  split at h
  · split at h
    · cases h
      exact decodePort_wellFormed _ _
    · cases h
  · cases h

/-- What a step does, told by the event it is: a whole command, a reset, a command's acceptance step, a tick on which nothing
happens, or a tick of a busy phase. `ms` are the moves that are left to the host. -/
inductive StepEffect (s : State) : State → Prop
  | transaction (i : Instr) (ms : List HostMove) (htrans : transactedNow s = some i) (hreset : resetNow s = false)
      (hphase : s.phase = .idle) : StepEffect s (commandEffect i (s.setMoves ms))
  | reset (ms : List HostMove) (hreset : resetNow s = true) (hacc : acceptedNow s = none) :
      StepEffect s (resetBlock (s.setMoves ms))
  | acceptance (i : Instr) (ms : List HostMove) (htick : tickAcceptedNow s = some i) (hacc : acceptedNow s = some i)
      (hreset : resetNow s = false) (hphase : s.phase = .idle) : StepEffect s (accept i (s.setMoves ms))
  | hold (ms : List HostMove) (hreset : resetNow s = false) (hacc : acceptedNow s = none) : StepEffect s (s.setMoves ms)
  | mix (ms : List HostMove) (hreset : resetNow s = false) (hacc : acceptedNow s = none) (hphase : s.phase = .mix) :
      StepEffect s (mixPhaseTick (s.setMoves ms))
  | warm (ms : List HostMove) (hreset : resetNow s = false) (hacc : acceptedNow s = none) (hphase : s.phase = .warm) :
      StepEffect s (warmPhaseTick (s.setMoves ms))
  | transfer (ms : List HostMove) (hreset : resetNow s = false) (hacc : acceptedNow s = none) (hphase : s.phase = .gen)
      (hready : readyNow s = true) : StepEffect s (transferTick (s.setMoves ms))

/-- A tick without a whole command is one of the events: reset first, and then what PHASE chooses (R77, R97). -/
theorem stepEffect_of_tick {s : State} {p : Inputs} (ms : List HostMove) (hin : inputsNow s = some p)
    (hnone : transactedNow s = none) : StepEffect s (tick p (s.setMoves ms)) := by
  have hreset := resetNow_of_inputs hin
  have hacc := (acceptedNow_of_not_transacted hnone).trans (tickAcceptedNow_of_inputs hin)
  cases hr : p.rst with
  | true =>
    rw [tick_reset _ hr]
    exact .reset ms (hreset.trans hr) (by simpa [hr] using hacc)
  | false =>
    rw [tick_run _ hr]
    rw [hr] at hreset
    cases hp : s.phase with
    | idle =>
      rw [sequencerTick_idle (s := s.setMoves ms) p hp]
      cases hv : p.cmdValid with
      | true =>
        rw [idleTick, if_pos hv]
        have hsome : acceptedNow s = some (decodePort s.countWidth p.cmd) := by simpa [hr, hv, hp] using hacc
        exact .acceptance _ ms ((acceptedNow_of_not_transacted hnone).symm.trans hsome) hsome hreset hp
      | false =>
        rw [idleTick, if_neg (by simp [hv])]
        exact .hold ms hreset (by simpa [hv] using hacc)
    | mix =>
      rw [sequencerTick_mix (s := s.setMoves ms) p hp]
      exact .mix ms hreset (by simpa [hp] using hacc) hp
    | warm =>
      rw [sequencerTick_warm (s := s.setMoves ms) p hp]
      exact .warm ms hreset (by simpa [hp] using hacc) hp
    | gen =>
      have hbusy : acceptedNow s = none := by simpa [hp] using hacc
      rw [sequencerTick_gen (s := s.setMoves ms) p hp]
      cases hk : p.ksReady with
      | true =>
        rw [genPhaseTick, if_pos hk]
        exact .transfer ms hreset hbusy hp (by simp [readyNow_of_inputs hin, hk, hr])
      | false =>
        rw [genPhaseTick, if_neg (by simp [hk])]
        exact .hold ms hreset hbusy

theorem stepEffect_of_step {s t : State} (h : step s = .next t) : StepEffect s t := by
  obtain ⟨c, rest, hm, hp, rfl⟩ | ⟨p, ms, hin, hnone, rfl⟩ := step_cases h
  · exact .transaction _ rest (transactedNow_of_command hm hp) (by simp [resetNow, inputsNow_of_transacted hm hp]) hp
  · exact stepEffect_of_tick ms hin hnone

/-! ### ERR, KEY, INITIALIZED and the registers: who writes them -/

/-- Settles O41: acceptance writes the command's code, reset writes 0, and a hold and the busy ticks leave ERR. -/
theorem errIsWrittenAtAcceptanceOnly : Obligations.ErrIsWrittenAtAcceptanceOnly := by
  intro s t h
  cases stepEffect_of_step h with
  | transaction i ms htrans hreset hphase =>
    have hacc := acceptedNow_of_transacted htrans
    simp [hacc, hreset, commandEffect_err]
  | acceptance i ms htick hacc hreset hphase => simp [hacc, hreset, accept_err]
  | reset ms hreset hacc => simp [hacc, hreset, State.reset]
  | hold ms hreset hacc => simp [hacc, hreset]
  | mix ms hreset hacc hphase => simp [hacc, hreset]
  | warm ms hreset hacc hphase => simp [hacc, hreset]
  | transfer ms hreset hacc hphase hready => simp [hacc, hreset]

/-- Settles O42: an accepted INIT, at either level, writes its operand, reset writes 0, and everything else leaves KEY. -/
theorem keyIsWrittenByInitAndReset : Obligations.KeyIsWrittenByInitAndReset := by
  intro s t h
  cases stepEffect_of_step h with
  | transaction i ms htrans hreset hphase =>
    rw [acceptedNow_of_transacted htrans]
    refine ⟨?_, by simp [hreset], fun hi _ => commandEffect_key_of_not_init (by simpa using hi) _⟩
    rintro k ⟨⟩
    exact initEffect_key k _
  | acceptance i ms htick hacc hreset hphase =>
    rw [hacc]
    refine ⟨?_, by simp [hreset], fun hi _ => accept_key_of_not_init (by simpa using hi) _⟩
    rintro k ⟨⟩
    exact acceptInit_key k _
  | reset ms hreset hacc => simp [hacc, hreset, State.reset]
  | hold ms hreset hacc => simp [hacc, hreset]
  | mix ms hreset hacc hphase => simp [hacc, hreset]
  | warm ms hreset hacc hphase => simp [hacc, hreset]
  | transfer ms hreset hacc hphase hready => simp [hacc, hreset]

/-- Settles O40: only INIT's whole run and its last warm-up tick write 1, only reset and INIT's acceptance write 0. -/
theorem onlyTheseStepsWriteInitialized : Obligations.OnlyTheseStepsWriteInitialized := by
  intro s t h
  cases stepEffect_of_step h with
  | transaction i ms htrans hreset hphase =>
    obtain ⟨k, rfl, he⟩ | ⟨c, rfl, hi, he⟩ | ⟨-, he⟩ := commandEffect_cases i (s.setMoves ms)
    · simp [he, htrans]
    · simp +contextual [he]
    · simp +contextual [he]
  | acceptance i ms htick hacc hreset hphase =>
    obtain ⟨k, rfl, he⟩ | ⟨c, rfl, hi, hc, he⟩ | ⟨-, he⟩ := accept_cases i (s.setMoves ms)
    · simp [he, htick]
    · simp +contextual [he]
    · simp +contextual [he]
  | warm ms hreset hacc hphase =>
    by_cases hj : s.j = 99#7
    · simp [warmPhaseTick_last (s := s.setMoves ms) hj, hphase, hj]
    · simp +contextual [warmPhaseTick_more (s := s.setMoves ms) hj]
  | reset ms hreset hacc => simp [hreset, State.reset]
  | hold ms hreset hacc => simp +contextual
  | mix ms hreset hacc hphase => simp +contextual
  | transfer ms hreset hacc hphase hready => simp +contextual

/-- Settles O39: each event that writes the registers is one of the seven, and the others leave them. -/
theorem onlyTheseStepsWriteRegisters : Obligations.OnlyTheseStepsWriteRegisters := by
  intro s t h hne
  cases stepEffect_of_step h with
  | transaction i ms htrans hreset hphase =>
    obtain ⟨k, rfl, he⟩ | ⟨c, rfl, hi, he⟩ | ⟨-, he⟩ := commandEffect_cases i (s.setMoves ms)
    · exact .inr (.inl ⟨k, htrans, by rw [he]; rfl⟩)
    · exact .inr (.inr (.inr (.inl ⟨c, htrans, hi, by rw [he]; rfl⟩)))
    · exact absurd (by rw [he]; rfl) hne
  | acceptance i ms htick hacc hreset hphase =>
    obtain ⟨k, rfl, he⟩ | ⟨c, -, -, -, he⟩ | ⟨-, he⟩ := accept_cases i (s.setMoves ms)
    · exact .inr (.inr (.inl ⟨k, htick, by rw [he]; rfl⟩))
    · exact absurd (by rw [he]; rfl) hne
    · exact absurd (by rw [he]; rfl) hne
  | reset ms hreset hacc => exact .inl ⟨hreset, rfl⟩
  | hold ms hreset hacc => exact absurd rfl hne
  | mix ms hreset hacc hphase => simp [hphase]
  | warm ms hreset hacc hphase => simp [hphase]
  | transfer ms hreset hacc hphase hready => simp [hphase, hready]

/-! ### The block's invariant -/

theorem State.phaseInv_idle {s : State} (h : s.phase = .idle) :
    s.PhaseInv ↔ s.j = 0#7 ∧ s.rem = 0 ∧ (s.initialized = false → s.regs = zeroRegs ∧ s.key = 0#64) := by
  simp [State.PhaseInv, h]

theorem State.phaseInv_mix {s : State} (h : s.phase = .mix) :
    s.PhaseInv ↔ s.j.toNat ≤ 63 ∧ s.rem = 0 ∧ s.initialized = false ∧ s.err = errNone := by
  simp [State.PhaseInv, h]

theorem State.phaseInv_warm {s : State} (h : s.phase = .warm) :
    s.PhaseInv ↔ s.j.toNat ≤ 99 ∧ s.rem = 0 ∧ s.initialized = false ∧ s.err = errNone := by
  simp [State.PhaseInv, h]

theorem State.phaseInv_gen {s : State} (h : s.phase = .gen) :
    s.PhaseInv ↔ s.j = 0#7 ∧ 1 ≤ s.rem ∧ s.rem < 2 ^ s.countWidth ∧ s.initialized = true ∧ s.err = errNone := by
  simp [State.PhaseInv, h]

/-- Below the last tick of a phase, J counts up without wrapping (R29). -/
theorem tickCount_succ_le {j : TickCount} {m : Nat} (hm : m < 127) (hle : j.toNat ≤ m) (hne : j ≠ BitVec.ofNat 7 m) :
    (j + 1#7).toNat ≤ m := by
  have hlt : j.toNat ≠ m := fun he => hne (BitVec.eq_of_toNat_eq (by simp [he]; omega))
  rw [BitVec.toNat_add]
  simp only [BitVec.toNat_ofNat]
  omega

theorem phaseInv_resetBlock (s : State) : (resetBlock s).PhaseInv :=
  (State.phaseInv_idle rfl).2 ⟨rfl, rfl, fun _ => ⟨rfl, rfl⟩⟩

theorem phaseInv_commandEffect {s : State} (i : Instr) (hp : s.phase = .idle) (h : s.PhaseInv) :
    (commandEffect i s).PhaseInv := by
  obtain ⟨hj, hrem, hkeyless⟩ := (State.phaseInv_idle hp).1 h
  obtain ⟨k, rfl, he⟩ | ⟨c, rfl, hi, he⟩ | ⟨-, he⟩ := commandEffect_cases i s
  · rw [he]
    exact (State.phaseInv_idle (by exact hp)).2 ⟨hj, hrem, by simp⟩
  · rw [he]
    exact (State.phaseInv_idle (by exact hp)).2 ⟨hj, hrem, by simp [hi]⟩
  · rw [he]
    exact (State.phaseInv_idle (by exact hp)).2 ⟨hj, hrem, hkeyless⟩

theorem phaseInv_accept {s : State} {i : Instr} (hi : i.wellFormed s.countWidth = true) (hp : s.phase = .idle)
    (h : s.PhaseInv) : (accept i s).PhaseInv := by
  obtain ⟨hj, hrem, hkeyless⟩ := (State.phaseInv_idle hp).1 h
  obtain ⟨k, rfl, he⟩ | ⟨c, rfl, hinit, hc, he⟩ | ⟨-, he⟩ := accept_cases i s
  · rw [he]
    exact (State.phaseInv_mix rfl).2 ⟨Nat.zero_le 63, hrem, rfl, rfl⟩
  · rw [he]
    have hlt : c < 2 ^ s.countWidth := of_decide_eq_true hi
    exact (State.phaseInv_gen rfl).2 ⟨hj, Nat.one_le_iff_ne_zero.2 hc, hlt, hinit, rfl⟩
  · rw [he]
    exact (State.phaseInv_idle (by exact hp)).2 ⟨hj, hrem, hkeyless⟩

theorem phaseInv_mixPhaseTick {s : State} (hp : s.phase = .mix) (h : s.PhaseInv) : (mixPhaseTick s).PhaseInv := by
  obtain ⟨hj, hrem, hinit, herr⟩ := (State.phaseInv_mix hp).1 h
  by_cases hlast : s.j = 63#7
  · rw [mixPhaseTick_last hlast]
    exact (State.phaseInv_warm rfl).2 ⟨Nat.zero_le 99, hrem, hinit, herr⟩
  · rw [mixPhaseTick_more hlast]
    exact (State.phaseInv_mix (by exact hp)).2 ⟨tickCount_succ_le (by decide) hj hlast, hrem, hinit, herr⟩

theorem phaseInv_warmPhaseTick {s : State} (hp : s.phase = .warm) (h : s.PhaseInv) : (warmPhaseTick s).PhaseInv := by
  obtain ⟨hj, hrem, hinit, herr⟩ := (State.phaseInv_warm hp).1 h
  by_cases hlast : s.j = 99#7
  · rw [warmPhaseTick_last hlast]
    exact (State.phaseInv_idle rfl).2 ⟨rfl, hrem, by simp⟩
  · rw [warmPhaseTick_more hlast]
    exact (State.phaseInv_warm (by exact hp)).2 ⟨tickCount_succ_le (by decide) hj hlast, hrem, hinit, herr⟩

theorem phaseInv_transferTick {s : State} (hp : s.phase = .gen) (h : s.PhaseInv) : (transferTick s).PhaseInv := by
  obtain ⟨hj, hpos, hlt, hinit, herr⟩ := (State.phaseInv_gen hp).1 h
  by_cases hlast : s.rem = 1
  · rw [transferTick_last hlast]
    exact (State.phaseInv_idle rfl).2 ⟨hj, rfl, by simp [hinit]⟩
  · rw [transferTick_more hlast, remPred_of_pos hpos hlt]
    have hpos' : 1 ≤ s.rem - 1 := by omega
    exact (State.phaseInv_gen (by exact hp)).2 ⟨hj, hpos', (Nat.sub_le _ 1).trans_lt hlt, hinit, herr⟩

/-- The sequencer's part of the invariant, event by event. -/
theorem phaseInv_of_stepEffect {s t : State} (h : s.PhaseInv) (ht : StepEffect s t) : t.PhaseInv := by
  cases ht with
  | transaction i ms htrans hreset hphase => exact phaseInv_commandEffect (s := s.setMoves ms) i hphase h
  | reset ms hreset hacc => exact phaseInv_resetBlock _
  | acceptance i ms htick hacc hreset hphase =>
    have hi := tickAcceptedNow_wellFormed htick
    exact phaseInv_accept (s := s.setMoves ms) hi hphase h
  | hold ms hreset hacc => exact h
  | mix ms hreset hacc hphase => exact phaseInv_mixPhaseTick (s := s.setMoves ms) hphase h
  | warm ms hreset hacc hphase => exact phaseInv_warmPhaseTick (s := s.setMoves ms) hphase h
  | transfer ms hreset hacc hphase hready => exact phaseInv_transferTick (s := s.setMoves ms) hphase h

/-- No step writes the reserved code 3 into ERR (R91). -/
theorem err_ne_reserved_of_step {s t : State} (hs : s.err ≠ 3#2) (h : step s = .next t) : t.err ≠ 3#2 := by
  obtain ⟨haccepted, hreset, hother⟩ := errIsWrittenAtAcceptanceOnly s t h
  cases hacc : acceptedNow s with
  | some i =>
    rw [haccepted i hacc]
    exact acceptanceCode_ne_reserved _ i
  | none =>
    cases hr : resetNow s with
    | true =>
      rw [hreset hr]
      decide
    | false =>
      rw [hother hacc hr]
      exact hs

/-- Settles O38: COUNT_WIDTH is never written, ERR only to a code below 3, and each event keeps its phase's ranges. -/
theorem everyStepKeepsTheInvariant : Obligations.EveryStepKeepsTheInvariant := by
  rintro s t ⟨hwidth, herr, hphase⟩ h
  refine ⟨?_, err_ne_reserved_of_step herr h, phaseInv_of_stepEffect hphase (stepEffect_of_step h)⟩
  rw [countWidthNeverChanges s t h]
  exact hwidth

/-- Settles O37: COUNT_WIDTH is 8, ERR is 0, and the idle phase holds no key material. -/
theorem invariantAtReset : Obligations.InvariantAtReset :=
  ⟨by decide, by decide, (State.phaseInv_idle rfl).2 ⟨rfl, rfl, fun _ => ⟨rfl, rfl⟩⟩⟩

/-- Settles O1: each field of the record is the table's value (R36). -/
theorem resetValues : Obligations.ResetValues := ⟨rfl, rfl, rfl, rfl, rfl, rfl, rfl, rfl, rfl⟩

end Sys2Proof.Machine
end

section
/-! PROOFS. What the host can see and what it cannot: the output ports, the hiding of KEY outside MIX, the run of NEXT
transfer by transfer, and the independence of several engines (10_state.md R23, R30, R31, R33). -/

namespace Sys2Proof.Machine

/-! ### The output ports (R33) -/

theorem ksBit_of_gen {s : State} (h : s.phase = .gen) : ksBit s = outBit s.regs := by
  simp [ksBit, ksValid, h]

theorem ksBit_of_not_gen {s : State} (h : s.phase ≠ .gen) : ksBit s = false := by
  simp [ksBit, ksValid, h]

/-- Settles O36: the ports are the table's functions by definition, and `ks_bit` is OUTBIT in GEN and 0 elsewhere. -/
theorem outputPortValues : Obligations.OutputPortValues := fun _ _ =>
  ⟨rfl, rfl, rfl, rfl, rfl, ksBit_of_gen, ksBit_of_not_gen, rfl, rfl, rfl⟩

/-! ### KEY is read in MIX only (R31, R37) -/

/-- Of two states, the second is the first, or it is the first with KEY k and neither is in MIX. -/
def KeyHidden (k : Key) (t u : State) : Prop := u = t ∨ (t.phase ≠ .mix ∧ u = t.setKey k)

theorem keyHidden_setKey {k : Key} {t : State} (h : t.phase ≠ .mix) : KeyHidden k t (t.setKey k) := .inr ⟨h, rfl⟩

theorem keyHidden_nextEffect {s : State} (c : Nat) (k : Key) (hp : s.phase ≠ .mix) :
    KeyHidden k (nextEffect c s) (nextEffect c (s.setKey k)) := by
  cases hi : s.initialized with
  | true =>
    rw [nextEffect_of_initialized c hi, nextEffect_of_initialized (s := s.setKey k) c hi]
    exact keyHidden_setKey (t := produce c (carryOut s)) hp
  | false =>
    rw [nextEffect_of_not_initialized c hi, nextEffect_of_not_initialized (s := s.setKey k) c hi]
    exact keyHidden_setKey (t := raiseErr errNotInitialized s) hp

/-- INIT overwrites KEY, and the other commands do not read it. -/
theorem keyHidden_commandEffect {s : State} (i : Instr) (k : Key) (hp : s.phase ≠ .mix) :
    KeyHidden k (commandEffect i s) (commandEffect i (s.setKey k)) := by
  cases i with
  | init => exact .inl rfl
  | next c => exact keyHidden_nextEffect c k hp
  | nop => exact keyHidden_setKey (t := nopEffect s) hp
  | reserved3 | reserved4 | reserved5 | reserved6 | reserved7 | reserved8 | reserved9 | reservedA | reservedB
  | reservedC | reservedD | reservedE | reservedF => exact keyHidden_setKey (t := reservedEffect s) hp

theorem keyHidden_acceptNext {s : State} (c : Nat) (k : Key) (hp : s.phase ≠ .mix) :
    KeyHidden k (acceptNext c s) (acceptNext c (s.setKey k)) := by
  cases hi : s.initialized with
  | true =>
    by_cases hc : c = 0
    · subst hc
      rw [acceptNext_zero hi, acceptNext_zero (s := s.setKey k) hi]
      exact keyHidden_setKey (t := carryOut s) hp
    · rw [acceptNext_pos hi hc, acceptNext_pos (s := s.setKey k) hi hc]
      exact keyHidden_setKey (t := ((carryOut s).setRem c).setPhase .gen) (by simp)
  | false =>
    rw [acceptNext_of_not_initialized c hi, acceptNext_of_not_initialized (s := s.setKey k) c hi]
    exact keyHidden_setKey (t := raiseErr errNotInitialized s) hp

theorem keyHidden_accept {s : State} (i : Instr) (k : Key) (hp : s.phase ≠ .mix) :
    KeyHidden k (accept i s) (accept i (s.setKey k)) := by
  cases i with
  | init => exact .inl rfl
  | next c => exact keyHidden_acceptNext c k hp
  | nop => exact keyHidden_setKey (t := acceptNop s) hp
  | reserved3 | reserved4 | reserved5 | reserved6 | reserved7 | reserved8 | reserved9 | reservedA | reservedB
  | reservedC | reservedD | reservedE | reservedF => exact keyHidden_setKey (t := reservedEffect s) hp

theorem keyHidden_idleTick {s : State} (p : Inputs) (k : Key) (hp : s.phase ≠ .mix) :
    KeyHidden k (idleTick p s) (idleTick p (s.setKey k)) := by
  by_cases hv : p.cmdValid = true
  · rw [idleTick, idleTick, if_pos hv, if_pos hv]
    exact keyHidden_accept _ k hp
  · rw [idleTick, idleTick, if_neg hv, if_neg hv]
    exact keyHidden_setKey hp

theorem keyHidden_warmPhaseTick {s : State} (k : Key) (hp : s.phase ≠ .mix) :
    KeyHidden k (warmPhaseTick s) (warmPhaseTick (s.setKey k)) := by
  by_cases hj : s.j = 99#7
  · rw [warmPhaseTick_last hj, warmPhaseTick_last (s := s.setKey k) hj]
    exact keyHidden_setKey (by simp)
  · rw [warmPhaseTick_more hj, warmPhaseTick_more (s := s.setKey k) hj]
    exact keyHidden_setKey (by simpa using hp)

theorem keyHidden_genPhaseTick {s : State} (p : Inputs) (k : Key) (hp : s.phase ≠ .mix) :
    KeyHidden k (genPhaseTick p s) (genPhaseTick p (s.setKey k)) := by
  by_cases hk : p.ksReady = true
  · rw [genPhaseTick, genPhaseTick, if_pos hk, if_pos hk]
    by_cases hr : s.rem = 1
    · rw [transferTick_last hr, transferTick_last (s := s.setKey k) hr]
      exact keyHidden_setKey (by simp)
    · rw [transferTick_more hr, transferTick_more (s := s.setKey k) hr]
      exact keyHidden_setKey (by simpa using hp)
  · rw [genPhaseTick, genPhaseTick, if_neg hk, if_neg hk]
    exact keyHidden_setKey hp

theorem keyHidden_tick {s : State} (p : Inputs) (k : Key) (hp : s.phase ≠ .mix) :
    KeyHidden k (tick p s) (tick p (s.setKey k)) := by
  cases hr : p.rst with
  | true =>
    rw [tick_reset _ hr, tick_reset _ hr]
    exact .inl rfl
  | false =>
    rw [tick_run _ hr, tick_run _ hr]
    cases hphase : s.phase with
    | idle =>
      rw [sequencerTick_idle p hphase, sequencerTick_idle (s := s.setKey k) p hphase]
      exact keyHidden_idleTick p k hp
    | mix => exact absurd hphase hp
    | warm =>
      rw [sequencerTick_warm p hphase, sequencerTick_warm (s := s.setKey k) p hphase]
      exact keyHidden_warmPhaseTick k hp
    | gen =>
      rw [sequencerTick_gen p hphase, sequencerTick_gen (s := s.setKey k) p hphase]
      exact keyHidden_genPhaseTick p k hp

theorem step_keyHidden {s : State} (k : Key) (hp : s.phase ≠ .mix) :
    ∃ t u, step s = .next t ∧ step (s.setKey k) = .next u ∧ KeyHidden k t u := by
  cases hm : s.moves with
  | nil => exact ⟨_, _, step_quiet hm, step_quiet (s := s.setKey k) hm, keyHidden_tick _ k hp⟩
  | cons m rest =>
    cases m with
    | tick p =>
      exact ⟨_, _, step_tick hm, step_tick (s := s.setKey k) hm, keyHidden_tick (s := s.setMoves rest) p k hp⟩
    | command c =>
      by_cases hidle : s.phase = .idle
      · refine ⟨_, _, (step_command hm hidle).trans (exec_idle (s := s.setMoves rest) _ hidle), ?_,
          keyHidden_commandEffect (s := s.setMoves rest) _ k hp⟩
        exact (step_command (s := s.setKey k) hm hidle).trans (exec_idle (s := (s.setMoves rest).setKey k) _ hidle)
      · exact ⟨_, _, step_waiting hm hidle, step_waiting (s := s.setKey k) hm hidle, keyHidden_tick _ k hp⟩

/-- Settles O43: no output port reads KEY, and the two steps' states are equal or differ in KEY outside MIX. -/
theorem keyIsHiddenOutsideMix : Obligations.KeyIsHiddenOutsideMix := by
  intro s k rst hp
  refine ⟨rfl, ?_⟩
  obtain ⟨t, u, ht, hu, rfl | ⟨hmix, rfl⟩⟩ := step_keyHidden k hp
  · exact ⟨u, ht, .inl hu⟩
  · exact ⟨t, ht, .inr ⟨hmix, hu⟩⟩

/-! ### NEXT, transfer by transfer (R30, R77) -/

theorem keystream_take {n c : Nat} (h : n ≤ c) (r : Regs) : (keystream c r).take n = keystream n r := by
  obtain ⟨m, rfl⟩ := Nat.exists_eq_add_of_le h
  rw [keystream_add]
  exact List.take_left' (keystream_length n r)

/-- A transfer before the last one produces one bit and counts REM down. -/
theorem transferTick_eq_produce_one {s : State} (h1 : 1 < s.rem) (h2 : s.rem < 2 ^ s.countWidth) :
    transferTick s = (produce 1 s).setRem (s.rem - 1) := by
  rw [transferTick_more (by omega), remPred_of_pos (by omega) h2]
  rfl

theorem produce_produce (a b : Nat) (s : State) : produce b (produce a s) = produce (a + b) s := by
  simp [produce, State.emit, State.setRegs, keystream_add, clockTicks_add]

/-- Ticks in GEN with fewer transfers than REM produce one bit for each transfer, and the block stays in GEN. -/
theorem ticks_gen_eq_produce {s : State} {ps : List Inputs} (hp : s.phase = .gen) (hw : s.rem < 2 ^ s.countWidth)
    (hrst : ∀ p ∈ ps, p.rst = false) (hn : ps.countP (·.ksReady) < s.rem) :
    ticks ps s = (produce (ps.countP (·.ksReady)) s).setRem (s.rem - ps.countP (·.ksReady)) := by
  induction ps generalizing s with
  | nil => simp [ticks, produce, keystream, clockTicks, State.emit, State.setRegs, State.setRem]
  | cons p ps ih =>
    rw [List.forall_mem_cons] at hrst
    rw [ticks_cons, tick_run s hrst.1, sequencerTick_gen p hp, genPhaseTick]
    by_cases hk : p.ksReady = true
    · rw [List.countP_cons_of_pos hk] at hn ⊢
      have hlt : s.rem - 1 < 2 ^ s.countWidth := by omega
      have hleft := Nat.lt_sub_of_add_lt hn
      rw [if_pos hk, transferTick_eq_produce_one (by omega) hw,
        ih (s := (produce 1 s).setRem (s.rem - 1)) hp hlt hrst.2 hleft, Nat.add_comm, ← produce_produce,
        ← Nat.sub_sub]
      rfl
    · rw [List.countP_cons_of_neg hk] at hn ⊢
      rw [if_neg hk]
      exact ih hp hw hrst.2 hn

/-- Settles O50: NEXT's acceptance step enters GEN with REM = C, and the ticks produce a bit for each transfer. -/
theorem nextSendsOneBitPerTransfer : Obligations.NextSendsOneBitPerTransfer := by
  intro s c ps _ hinit hc hrst hn
  rw [acceptNext_pos hinit (by omega), ticks_gen_eq_produce rfl hc hrst hn, keystream_take hn.le]
  exact ⟨rfl, rfl, rfl⟩

/-! ### Several engines (R23, R104) -/

theorem stepAt_eq_some_iff {k : Nat} {bank bank' : List State} :
    stepAt k bank = some bank' ↔ ∃ s t, bank[k]? = some s ∧ step s = .next t ∧ bank' = bank.set k t := by
  cases hk : bank[k]? with
  | none => simp [stepAt, hk]
  | some s => cases hs : step s <;> simp [stepAt, hk, hs, eq_comm]

theorem stepAt_getElem?_of_ne {k m : Nat} {bank bank' : List State} (h : stepAt k bank = some bank') (hne : m ≠ k) :
    bank'[m]? = bank[m]? := by
  obtain ⟨s, t, -, -, rfl⟩ := stepAt_eq_some_iff.1 h
  exact List.getElem?_set_ne hne.symm

/-- Two engines' steps, taken in one order, can be taken in the other, to the same bank. -/
theorem stepAt_bind_swap {k m : Nat} {bank bank' : List State} (hne : k ≠ m)
    (h : (stepAt k bank).bind (stepAt m) = some bank') : (stepAt m bank).bind (stepAt k) = some bank' := by
  obtain ⟨mid, hk, hm⟩ := Option.bind_eq_some_iff.1 h
  obtain ⟨s, t, hs, hst, rfl⟩ := stepAt_eq_some_iff.1 hk
  obtain ⟨u, v, hu, huv, rfl⟩ := stepAt_eq_some_iff.1 hm
  rw [List.getElem?_set_ne hne] at hu
  refine Option.bind_eq_some_iff.2 ⟨bank.set m v, stepAt_eq_some_iff.2 ⟨u, v, hu, huv, rfl⟩, ?_⟩
  refine stepAt_eq_some_iff.2 ⟨s, t, ?_, hst, List.set_comm t v hne⟩
  rwa [List.getElem?_set_ne hne.symm]

/-- Settles O55: a step writes its own engine's place only, so it leaves the others and swaps with their steps. -/
theorem enginesAreIndependent : Obligations.EnginesAreIndependent :=
  ⟨fun _ _ _ _ => stepAt_getElem?_of_ne,
    fun _ _ _ hne => Option.ext fun _ => ⟨stepAt_bind_swap hne, stepAt_bind_swap hne.symm⟩⟩

end Sys2Proof.Machine
end

section
/-! PROOFS. The data that the block and its host exchange: the bits that a step sends, the bit order of a key buffer, and
the packing of the keystream (20_memory.md R40 to R43, R48). -/

namespace Sys2Proof.Machine

/-! ### The bits sent (R42, R48) -/

@[simp] theorem initEffect_sent (k : Key) (s : State) : (initEffect k s).sent = s.sent := rfl
@[simp] theorem acceptInit_sent (k : Key) (s : State) : (acceptInit k s).sent = s.sent := rfl

/-- No acceptance step sends a bit: NEXT's own bits follow in GEN. -/
@[simp] theorem accept_sent (i : Instr) (s : State) : (accept i s).sent = s.sent := by
  obtain ⟨k, -, h⟩ | ⟨c, -, -, -, h⟩ | ⟨-, h⟩ := accept_cases i s
  · rw [h, acceptInit_sent]
  · rw [h]; rfl
  · rw [h, State.setErr_sent]

@[simp] theorem mixPhaseTick_sent (s : State) : (mixPhaseTick s).sent = s.sent := by
  unfold mixPhaseTick; split <;> rfl
@[simp] theorem warmPhaseTick_sent (s : State) : (warmPhaseTick s).sent = s.sent := by
  unfold warmPhaseTick; split <;> rfl
@[simp] theorem transferTick_sent (s : State) : (transferTick s).sent = s.sent ++ [outBit s.regs] := by
  unfold transferTick; split <;> rfl

/-- Settles O44: of the events of a step, only a transfer and a NEXT of an initialised block append to the bits sent. -/
theorem bitsAreSentInOrderByTransfersOnly : Obligations.BitsAreSentInOrderByTransfersOnly := by
  intro s t h
  cases stepEffect_of_step h with
  | transaction i ms htrans hreset hphase =>
    obtain ⟨k, -, he⟩ | ⟨c, rfl, hi, he⟩ | ⟨-, he⟩ := commandEffect_cases i (s.setMoves ms)
    · exact .inl (by simp [he])
    · exact .inr (.inr ⟨c, htrans, hi, by simp [he]⟩)
    · exact .inl (by simp [he])
  | transfer ms hreset hacc hphase hready =>
    exact .inr (.inl ⟨hphase, hready, by simp [ksBit_of_gen hphase]⟩)
  | reset ms hreset hacc => exact .inl (by simp)
  | acceptance i ms htick hacc hreset hphase => exact .inl (by simp)
  | hold ms hreset hacc => exact .inl (by simp)
  | mix ms hreset hacc hphase => exact .inl (by simp)
  | warm ms hreset hacc hphase => exact .inl (by simp)

/-! ### The bits of a word, most significant first -/

/-- The bits of a word in the order in which the key is mixed and the keystream is packed (R40, R43). -/
def msbBits {w : Nat} (x : BitVec w) : List Bool := (List.range w).map x.getMsbD

/-- A byte's bits as the statements write them, b[7] .. b[0]. -/
theorem msbBits_byte : @msbBits 8 = fun b => (List.range 8).map fun i => b.getLsbD (7 - i) := by
  refine funext fun b => List.map_congr_left fun i hi => ?_
  simp [BitVec.getMsbD_eq_getLsbD, List.mem_range.1 hi]

theorem msbBits_append {v w : Nat} (x : BitVec v) (y : BitVec w) : msbBits (x ++ y) = msbBits x ++ msbBits y := by
  rw [msbBits, List.range_add, List.map_append, List.map_map]
  congr 1
  · exact List.map_congr_left fun i hi => by simp [BitVec.getMsbD_append, List.mem_range.1 hi]
  · exact List.map_congr_left fun i _ => by simp [BitVec.getMsbD_append]

theorem msbBits_ofBoolListBE (bits : List Bool) : msbBits (BitVec.ofBoolListBE bits) = bits := by
  refine List.ext_getElem (by simp [msbBits]) fun i _ hi => ?_
  simp [msbBits, BitVec.getMsbD_ofBoolListBE, hi]

/-! ### The key's bit order (R40, R41) -/

theorem keyBit_ofNat {j : Nat} (k : Key) (hj : j < 64) : keyBit k (BitVec.ofNat 7 j) = k.getMsbD j := by
  have htick : (BitVec.ofNat 7 j).toNat = j := Nat.mod_eq_of_lt (by omega)
  rw [keyBit, htick, if_pos (by omega)]
  simp [BitVec.getMsbD_eq_getLsbD, hj]

theorem keySequence_eq_msbBits (k : Key) : keySequence k = msbBits k :=
  List.map_congr_left fun _ hj => keyBit_ofNat k (List.mem_range.1 hj)

theorem exists_eq_of_length_eight {α : Type} {l : List α} (h : l.length = 8) :
    ∃ a0 a1 a2 a3 a4 a5 a6 a7, l = [a0, a1, a2, a3, a4, a5, a6, a7] :=
  match l, h with
  | [a0, a1, a2, a3, a4, a5, a6, a7], _ => ⟨a0, a1, a2, a3, a4, a5, a6, a7, rfl⟩

theorem keyOfBytes_of_length_eight {bs : List (BitVec 8)} (h : bs.length = 8) :
    ∃ k, Codec.keyOfBytes bs = .ok k ∧ msbBits k = bs.flatMap msbBits := by
  obtain ⟨b0, b1, b2, b3, b4, b5, b6, b7, rfl⟩ := exists_eq_of_length_eight h
  have hbits : msbBits (b0 ++ b1 ++ b2 ++ b3 ++ b4 ++ b5 ++ b6 ++ b7) =
      [b0, b1, b2, b3, b4, b5, b6, b7].flatMap msbBits := by
    simp only [msbBits_append, List.flatMap_cons, List.flatMap_nil, List.append_assoc, List.append_nil]
  exact ⟨_, rfl, hbits⟩

theorem keyOfBytes_of_length_ne_eight {bs : List (BitVec 8)} (h : bs.length ≠ 8) :
    Codec.keyOfBytes bs = .error .invalidKeyLength := by
  unfold Codec.keyOfBytes
  split
  · exact absurd rfl h
  · rfl

/-- Settles O56: the buffer's bytes are concatenated byte 0 first, and mixing takes the key's bits most significant first. -/
theorem keyBufferBitOrder : Obligations.KeyBufferBitOrder := by
  refine ⟨fun bs h => ?_, fun bs => keyOfBytes_of_length_ne_eight⟩
  obtain ⟨k, hk, hbits⟩ := keyOfBytes_of_length_eight h
  exact ⟨k, hk, by rw [keySequence_eq_msbBits, hbits, msbBits_byte]⟩

/-! ### The packing of the keystream (R43) -/

/-- The number of a bit list, read on from n. -/
theorem foldl_bits_eq_toNat (bits : List Bool) (n : Nat) :
    bits.foldl (fun n b => 2 * n + b.toNat) n = n * 2 ^ bits.length + (BitVec.ofBoolListBE bits).toNat := by
  induction bits generalizing n with
  | nil => simp [BitVec.ofBoolListBE]
  | cons b bits ih =>
    rw [List.foldl_cons, ih, BitVec.ofBoolListBE, BitVec.toNat_cons', Nat.shiftLeft_eq, List.length_cons]
    ring

theorem numberOfBits_eq_toNat (bits : List Bool) : Codec.numberOfBits bits = (BitVec.ofBoolListBE bits).toNat := by
  simp [Codec.numberOfBits, foldl_bits_eq_toNat]

theorem msbBits_ofNat_numberOfBits {w : Nat} {bits : List Bool} (h : bits.length = w) :
    msbBits (BitVec.ofNat w (Codec.numberOfBits bits)) = bits := by
  subst h
  rw [numberOfBits_eq_toNat, BitVec.ofNat_toNat, BitVec.setWidth_eq, msbBits_ofBoolListBE]

/-- Packing takes one byte off the front. -/
theorem packBytes_append {byte : List Bool} (rest : List Bool) (h : byte.length = 8) : Codec.packBytes (byte ++ rest) =
    (Codec.packBytes rest).map (BitVec.ofNat 8 (Codec.numberOfBits byte) :: ·) := by
  obtain ⟨b0, b1, b2, b3, b4, b5, b6, b7, rfl⟩ := exists_eq_of_length_eight h
  rfl

theorem packBytes_of_length {n : Nat} {bits : List Bool} (h : bits.length = 8 * n) :
    ∃ bytes, Codec.packBytes bits = some bytes ∧ bytes.length = n ∧ bits = bytes.flatMap msbBits := by
  induction n generalizing bits with
  | zero =>
    obtain rfl := List.length_eq_zero_iff.1 h
    exact ⟨[], rfl, rfl, rfl⟩
  | succ n ih =>
    have hfirst : (bits.take 8).length = 8 := by rw [List.length_take]; omega
    have hrest : (bits.drop 8).length = 8 * n := by rw [List.length_drop]; omega
    obtain ⟨bytes, hpack, hlen, hbits⟩ := ih hrest
    refine ⟨BitVec.ofNat 8 (Codec.numberOfBits (bits.take 8)) :: bytes, ?_, by rw [List.length_cons, hlen], ?_⟩
    · rw [← List.take_append_drop 8 bits, packBytes_append _ hfirst, hpack]
      simp
    · rw [List.flatMap_cons, msbBits_ofNat_numberOfBits hfirst, ← hbits, List.take_append_drop]

/-- Settles O57: byte by byte, the bits of the byte that is packed are the eight that were taken. -/
theorem keystreamPacksMsbFirst : Obligations.KeystreamPacksMsbFirst := by
  intro n bits h
  obtain ⟨bytes, hpack, hlen, hbits⟩ := packBytes_of_length h
  exact ⟨bytes, hpack, hlen, by rwa [← msbBits_byte]⟩

end Sys2Proof.Machine
end

section
/-! PROOFS. The command port and the command word: what the decoder reads of a port, the layout of the word, the lines of a
listing, and the port of a busy block (30_encoding.md R57 to R64). -/

namespace Sys2Proof.Machine

/-! ### What the port decoder reads (R58, R60) -/

theorem decodePort_of_init {p : CommandPort} (w : Nat) (h : p.op = 1#4) : decodePort w p = .init p.key := by
  simp [decodePort, h]

theorem decodePort_of_next {p : CommandPort} (w : Nat) (h : p.op = 2#4) :
    decodePort w p = .next (portCount w p.count) := by
  simp [decodePort, h]

/-- Of the port of any other opcode the decoder reads the opcode alone. -/
theorem decodePort_congr_op {p q : CommandPort} (w : Nat) (hop : p.op = q.op) (hinit : p.op ≠ 1#4) (hnext : p.op ≠ 2#4) :
    decodePort w p = decodePort w q := by
  unfold decodePort
  rw [← hop]
  split
  next => rfl
  next h => exact absurd (BitVec.eq_of_toNat_eq h) hinit
  next h => exact absurd (BitVec.eq_of_toNat_eq h) hnext
  all_goals rfl

@[simp] theorem decodePort_opcode (w : Nat) (p : CommandPort) : (decodePort w p).opcode = p.op := by
  obtain ⟨⟨n, hn⟩, key, count⟩ := p
  have hlt : n < 16 := hn
  interval_cases n <;> rfl

theorem key_of_decodePort_eq_init {w : Nat} {p : CommandPort} {k : Key} (h : decodePort w p = .init k) : k = p.key := by
  have hop : p.op = 1#4 := by rw [← decodePort_opcode w p, h]; rfl
  exact Instr.init.inj (h.symm.trans (decodePort_of_init w hop))

theorem count_of_decodePort_eq_next {w : Nat} {p : CommandPort} {c : Nat} (h : decodePort w p = .next c) :
    c = portCount w p.count := by
  have hop : p.op = 2#4 := by rw [← decodePort_opcode w p, h]; rfl
  exact Instr.next.inj (h.symm.trans (decodePort_of_next w hop))

theorem portCount_of_lt {w n : Nat} (h : n < 2 ^ w) : portCount w n = n := Nat.mod_eq_of_lt h

theorem decodePort_encodePort {w : Nat} {i : Instr} (h : i.wellFormed w = true) : decodePort w (encodePort i) = i := by
  cases i with
  | next c => exact congrArg Instr.next (portCount_of_lt (of_decide_eq_true h))
  | nop | init | reserved3 | reserved4 | reserved5 | reserved6 | reserved7 => rfl
  | reserved8 | reserved9 | reservedA | reservedB | reservedC | reservedD | reservedE | reservedF => rfl

theorem encodePort_count_lt {w : Nat} {i : Instr} (h : i.wellFormed w = true) : (encodePort i).count < 2 ^ w := by
  cases i with
  | next c => exact of_decide_eq_true h
  | nop | init | reserved3 | reserved4 | reserved5 | reserved6 | reserved7 => exact Nat.two_pow_pos w
  | reserved8 | reserved9 | reservedA | reservedB | reservedC | reservedD | reservedE | reservedF =>
    exact Nat.two_pow_pos w

/-! ### The layout of the command word (R59) -/

theorem splitWord_op_toNat (x : Nat) : (splitWord x).op.toNat = x % 2 ^ 4 := BitVec.toNat_ofNat x 4

theorem splitWord_key_toNat (x : Nat) : (splitWord x).key.toNat = x / 2 ^ 4 % 2 ^ 64 := by
  rw [← Nat.shiftRight_eq_div_pow]
  exact BitVec.toNat_ofNat (x >>> 4) 64

theorem splitWord_count (x : Nat) : (splitWord x).count = x / 2 ^ 68 := Nat.shiftRight_eq_div_pow x 68

/-- The three fields do not overlap: a word falls apart into the fields it was made of. -/
theorem splitWord_joinWord (p : CommandPort) : splitWord (joinWord p) = p := by
  have hop := p.op.isLt
  have hkey := p.key.isLt
  have hopField : (splitWord (joinWord p)).op = p.op :=
    BitVec.eq_of_toNat_eq (by rw [splitWord_op_toNat, joinWord]; omega)
  have hkeyField : (splitWord (joinWord p)).key = p.key :=
    BitVec.eq_of_toNat_eq (by rw [splitWord_key_toNat, joinWord]; omega)
  have hcountField : (splitWord (joinWord p)).count = p.count := by rw [splitWord_count, joinWord]; omega
  calc splitWord (joinWord p)
      = ⟨(splitWord (joinWord p)).op, (splitWord (joinWord p)).key, (splitWord (joinWord p)).count⟩ := rfl
    _ = p := by rw [hopField, hkeyField, hcountField]

theorem joinWord_lt {p : CommandPort} {w : Nat} (h : p.count < 2 ^ w) : joinWord p < 2 ^ (68 + w) := by
  have hop := p.op.isLt
  have hkey := p.key.isLt
  rw [joinWord, Nat.pow_add]
  omega

theorem decodeWord_of_lt {w x : Nat} (h : x < 2 ^ (68 + w)) : decodeWord w x = .ok (decodePort w (splitWord x)) := if_pos h

theorem splitWord_count_lt {w x : Nat} (h : x < 2 ^ (68 + w)) : (splitWord x).count < 2 ^ w := by
  rw [splitWord_count]
  rw [Nat.pow_add] at h
  exact Nat.div_lt_of_lt_mul h

/-- Settles O15: the word's fields are those of the command's port, and the port decodes to the command. -/
theorem decodeOfEncode : Obligations.DecodeOfEncode := by
  intro w i h
  rw [encode, decodeWord_of_lt (joinWord_lt (encodePort_count_lt h)), splitWord_joinWord, decodePort_encodePort h]

/-! ### One row of the opcode table for each word (R60) -/

/-- Every row masks CW[3:0] alone, so a word belongs to the rows of its low four bits. -/
theorem opcodeTable_filter_word (x : Nat) :
    opcodeTable.filter (fun r => x &&& r.mask == r.pattern) = [⟨0xF, (splitWord x).op.toNat⟩] := by
  have hmask : ∀ r ∈ opcodeTable, r.mask = 2 ^ 4 - 1 := by decide
  rw [← Laws.RowOf.row_of_opcode]
  refine List.filter_congr fun r hr => ?_
  rw [hmask r hr, Nat.and_two_pow_sub_one_eq_mod, Nat.and_two_pow_sub_one_eq_mod, splitWord_op_toNat, Nat.mod_mod]

/-- Settles O16: the command is what the port decoder reads of the word's three fields. -/
theorem everyCommandWordDecodes : Obligations.EveryCommandWordDecodes := by
  intro w x h
  refine ⟨decodePort w (splitWord x), decodeWord_of_lt h, decodePort_wellFormed w _, ?opcode, ?key, ?count, ?row⟩
  case opcode => rw [decodePort_opcode, splitWord_op_toNat]
  case key =>
    intro k hk
    rw [key_of_decodePort_eq_init hk, splitWord_key_toNat]
  case count =>
    intro c hc
    rw [count_of_decodePort_eq_next hc, portCount_of_lt (splitWord_count_lt h), splitWord_count]
  case row => rw [decodePort_opcode, opcodeTable_filter_word]

/-- Settles O18: the fields of each word, evaluated. -/
theorem listingWordsDecode : Obligations.ListingWordsDecode := ⟨rfl, rfl, rfl, rfl, rfl, rfl, rfl⟩

/-! ### A command port, run and ignored (R57, R58) -/

/-- Settles O17: INIT reads the key, NEXT the count, and every other command neither. -/
theorem unreadFieldsDoNotMatter : Obligations.UnreadFieldsDoNotMatter := by
  intro s p q rest hop hkey hcount
  have hdecode : decodePort s.countWidth p = decodePort s.countWidth q := by
    by_cases hinit : p.op = 1#4
    · rw [decodePort_of_init _ hinit, decodePort_of_init _ (hop ▸ hinit), hkey hinit]
    · by_cases hnext : p.op = 2#4
      · rw [decodePort_of_next _ hnext, decodePort_of_next _ (hop ▸ hnext), hcount hnext]
      · exact decodePort_congr_op _ hop hinit hnext
  refine ⟨hdecode, fun hidle => ?_⟩
  have hp := step_command (s := s.setMoves (.command p :: rest)) rfl hidle
  have hq := step_command (s := s.setMoves (.command q :: rest)) rfl hidle
  exact hp.trans ((congrArg (exec · (s.setMoves rest)) hdecode).trans hq.symm)

/-- Settles O12: exec is acceptance, and a busy block accepts nothing. -/
theorem busyBlockAcceptsNothing : Obligations.BusyBlockAcceptsNothing := by
  intro i s h
  rw [exec_eq_onAcceptance, onAcceptance_busy _ h]

theorem decodePort_of_decodeTableWord {n x : Nat} {i : Instr} (h : decodeTableWord n x = some i) :
    decodePort Config.countWidth (splitWord (x % 2 ^ n)) = i := by
  unfold decodeTableWord decodeWord at h
  split_ifs at h
  simpa using h

/-- Settles O20: the placed port is the next move of an idle block, and the step decodes it. -/
theorem placedWordRunsNext : Obligations.PlacedWordRunsNext := by
  intro s n x i hwidth h
  rw [← decodePort_of_decodeTableWord h, ← hwidth]
  exact step_command (s := s.withFetchWord n x) rfl rfl

/-- A tick of a busy block reads `rst` and `ks_ready`, and nothing of the command port. -/
theorem tick_busy_congr {s : State} {p q : Inputs} (hbusy : s.phase ≠ .idle) (hrst : p.rst = q.rst)
    (hready : p.ksReady = q.ksReady) : tick p s = tick q s := by
  cases hr : p.rst with
  | true => rw [tick_reset s hr, tick_reset s (hrst ▸ hr)]
  | false =>
    rw [tick_run s hr, tick_run s (hrst ▸ hr)]
    cases hp : s.phase with
    | idle => exact absurd hp hbusy
    | mix => rw [sequencerTick_mix p hp, sequencerTick_mix q hp]
    | warm => rw [sequencerTick_warm p hp, sequencerTick_warm q hp]
    | gen => rw [sequencerTick_gen p hp, sequencerTick_gen q hp, genPhaseTick, genPhaseTick, hready]

/-- Settles O35: the two steps are two ticks of the same busy state. -/
theorem commandPortIgnoredWhileBusy : Obligations.CommandPortIgnoredWhileBusy := by
  intro s p q rest hbusy hrst hready
  rw [step_tick rfl, step_tick rfl]
  exact congrArg Host.Outcome.next (tick_busy_congr (s := s.setMoves rest) hbusy hrst hready)

/-! ### The lines of a listing (R63, R64) -/

theorem nextPort_decodes (w c : Nat) : (Assembler.nextPort w c).map (decodePort w) =
    if c < 2 ^ w then .ok (.next c) else .error .literalOutOfRange := by
  unfold Assembler.nextPort
  split_ifs with h
  · exact congrArg Except.ok (decodePort_encodePort (decide_eq_true h))
  · rfl

/-- The host's numbers for a list of bytes are in a byte's range. -/
theorem all_lt_map_toNat (bs : List (BitVec 8)) : (bs.map BitVec.toNat).all (fun b => b < 256) = true := by
  rw [List.all_map, List.all_eq_true]
  exact fun b _ => decide_eq_true b.isLt

theorem all_lt_eq_false {cs : List Nat} (h : ∃ c ∈ cs, 256 ≤ c) : cs.all (fun c => c < 256) = false := by
  simpa using h

theorem map_ofNat_map_toNat (bs : List (BitVec 8)) : (bs.map BitVec.toNat).map (BitVec.ofNat 8) = bs := by
  have hround : (BitVec.ofNat 8 ∘ BitVec.toNat : BitVec 8 → BitVec 8) = id := funext fun b => by simp
  rw [List.map_map, hround, List.map_id]

theorem assembleLine_initBytes (w : Nat) (bs : List (BitVec 8)) :
    Assembler.assembleLine w (.initBytes (bs.map BitVec.toNat)) = Assembler.initPort (Codec.keyOfBytes bs) := by
  rw [Assembler.assembleLine, if_pos (all_lt_map_toNat bs), map_ofNat_map_toNat]

theorem keyOfText_of_length_ne_eight {cs : List Nat} (h : cs.length ≠ 8) :
    Codec.keyOfText cs = .error .invalidKeyLength := if_pos h

theorem keyOfText_of_wide {cs : List Nat} (h : cs.length = 8) (hwide : ∃ c ∈ cs, 256 ≤ c) :
    Codec.keyOfText cs = .error .characterOutOfRange := by
  simp [Codec.keyOfText, h, all_lt_eq_false hwide]

theorem keyOfText_map_toNat {cs : List (BitVec 8)} (h : cs.length = 8) :
    Codec.keyOfText (cs.map BitVec.toNat) = Codec.keyOfBytes cs := by
  rw [Codec.keyOfText, if_neg (by simp [h]), if_pos (all_lt_map_toNat cs), map_ofNat_map_toNat]

theorem assembleLine_op {n : Nat} (w : Nat) (h : n < 16) :
    Assembler.assembleLine w (.op n) = .ok { op := BitVec.ofNat 4 n, key := 0#64, count := 0 } := if_pos h

theorem assembleLine_init_decodes (w k : Nat) : (Assembler.assembleLine w (.init k)).map (decodePort w) =
    if k < 2 ^ 64 then .ok (.init (BitVec.ofNat 64 k)) else .error .literalOutOfRange := by
  rw [Assembler.assembleLine]
  split_ifs <;> rfl

/-- Settles O59: each form of a line by its lemma; what is refused fails the test of its own branch. -/
theorem assembledLinesDecode : Obligations.AssembledLinesDecode := by
  intro w hw
  refine ⟨rfl, ?step, assembleLine_init_decodes w, nextPort_decodes w, ?op, rfl, ?opNext, fun n hn => if_neg (by omega),
    ?bytes, ?wideBytes, ?textLength, ?wideText, ?text⟩
  case step =>
    have hone : 1 < 2 ^ w := Nat.one_lt_two_pow (by omega)
    exact (nextPort_decodes w 1).trans (if_pos hone)
  case op =>
    intro n hn
    rw [assembleLine_op w hn]
    refine ⟨rfl, _, rfl, ?_⟩
    rw [decodePort_opcode, BitVec.toNat_ofNat]
    exact Nat.mod_eq_of_lt hn
  case opNext => exact congrArg (Except.ok ∘ Instr.next) (portCount_of_lt (Nat.two_pow_pos w))
  case bytes =>
    intro bs
    rw [assembleLine_initBytes]
    by_cases h : bs.length = 8
    · obtain ⟨k, hk, -⟩ := keyOfBytes_of_length_eight h
      rw [hk]
      rfl
    · rw [keyOfBytes_of_length_ne_eight h]
      rfl
  case wideBytes =>
    intro bs h
    rw [Assembler.assembleLine, all_lt_eq_false h]
    rfl
  case textLength =>
    intro cs h
    rw [Assembler.assembleLine, keyOfText_of_length_ne_eight h]
    rfl
  case wideText =>
    intro cs h hwide
    rw [Assembler.assembleLine, keyOfText_of_wide h hwide]
    rfl
  case text =>
    intro cs h
    obtain ⟨k, hk, -⟩ := keyOfBytes_of_length_eight h
    refine ⟨k, hk, ?_⟩
    rw [Assembler.assembleLine, keyOfText_map_toNat h, hk]
    rfl

end Sys2Proof.Machine
end

section
/-! PROOFS. The datapath's functions: the feedback taps, the shift, the majority and the select, R3 after mixing, and
the zero registers (40_datapath.md R65 to R71, R78). -/

namespace Sys2Proof.Machine

/-! ### The shift and the feedback (R65 to R67) -/

/-- Bit n-1 is the bit shifted in, and every other bit comes from its neighbour (R66). -/
theorem shiftIn_getLsbD {n : Nat} (r : BitVec n) (b : Bool) {i : Nat} (hi : i < n) :
    (shiftIn r b).getLsbD i = if i = n - 1 then b else r.getLsbD (i + 1) := by
  rw [shiftIn, BitVec.getLsbD_or, BitVec.getLsbD_shiftLeft, BitVec.getLsbD_ushiftRight, Nat.add_comm 1 i]
  by_cases hlast : i = n - 1
  · subst hlast
    have hout : r.getLsbD (n - 1 + 1) = false := BitVec.getLsbD_of_ge r _ (by omega)
    simp [hout, hi, Nat.zero_lt_of_lt hi]
  · have hbelow : i < n - 1 := by omega
    simp [hlast, hbelow]

/-- The shift as a number: the two parts share no bit, so their OR is their sum (R66). -/
theorem shiftIn_toNat {n : Nat} (r : BitVec n) (b : Bool) (hn : 0 < n) :
    (shiftIn r b).toNat = b.toNat * 2 ^ (n - 1) + r.toNat / 2 := by
  have hpow : 2 ^ (n - 1) * 2 = 2 ^ n := Nat.two_pow_pred_mul_two hn
  have hr : r.toNat / 2 < 2 ^ (n - 1) := by have := r.isLt; omega
  have hb : b.toNat < 2 ^ n := b.toNat_lt.trans_le (by have := Nat.two_pow_pos (n - 1); omega)
  have htop : b.toNat * 2 ^ (n - 1) < 2 ^ n := by
    rw [← hpow, Nat.mul_comm _ 2]
    exact Nat.mul_lt_mul_of_pos_right b.toNat_lt (Nat.two_pow_pos _)
  calc (shiftIn r b).toNat = (b.toNat % 2 ^ n) <<< (n - 1) % 2 ^ n ||| r.toNat >>> 1 := by
        simp [shiftIn]
    _ = b.toNat <<< (n - 1) ||| r.toNat / 2 := by
        rw [Nat.mod_eq_of_lt hb, Nat.shiftLeft_eq, Nat.mod_eq_of_lt htop, Nat.shiftRight_one]
    _ = b.toNat * 2 ^ (n - 1) + r.toNat / 2 := by
        rw [← Nat.shiftLeft_add_eq_or_of_lt hr, Nat.shiftLeft_eq]

/-- Settles O23: the shift bit by bit, and as a number. -/
theorem shiftInDropsBitZero : Obligations.ShiftInDropsBitZero :=
  fun _ r b hn => ⟨fun _ hi => shiftIn_getLsbD r b hi, shiftIn_toNat r b hn⟩

theorem fb1_eq_xor (r : Reg1) : fb1 r = (r.getLsbD 13 ^^ r.getLsbD 16 ^^ r.getLsbD 17 ^^ r.getLsbD 18) := by
  simp [fb1, tapXor, Config.fbTaps1]

theorem fb2_eq_xor (r : Reg2) : fb2 r = (r.getLsbD 20 ^^ r.getLsbD 21) := by
  simp [fb2, tapXor, Config.fbTaps2]

theorem fb3_eq_xor (r : Reg3) : fb3 r = (r.getLsbD 7 ^^ r.getLsbD 20 ^^ r.getLsbD 21 ^^ r.getLsbD 22) := by
  simp [fb3, tapXor, Config.fbTaps3]

/-- Settles O22: the fold over the tap lists, written out; the rule's values are evaluated. -/
theorem feedbackIsXorOfTaps : Obligations.FeedbackIsXorOfTaps :=
  ⟨fb1_eq_xor, fb2_eq_xor, fb3_eq_xor, by decide⟩

/-- Settles O24: the number of the shift, with the register's own feedback; the rule's values are evaluated. -/
theorem advanceShiftsInOwnFeedback : Obligations.AdvanceShiftsInOwnFeedback :=
  ⟨fun r => shiftIn_toNat r (fb1 r) (by decide), fun r => shiftIn_toNat r (fb2 r) (by decide),
    fun r => shiftIn_toNat r (fb3 r) (by decide), by decide⟩

/-! ### The majority and the register that advances (R68, R69, R71) -/

theorem maj_eq_true_iff : ∀ c1 c2 c3 : Bool, maj c1 c2 c3 = true ↔ 2 ≤ [c1, c2, c3].count true := by decide

theorem two_le_count_maj : ∀ c1 c2 c3 : Bool, 2 ≤ [c1, c2, c3].count (maj c1 c2 c3) := by decide

/-- The first bit is in the majority unless the other two agree against it. -/
theorem eq_maj_first_iff : ∀ c1 c2 c3 : Bool, c1 = maj c1 c2 c3 ↔ ¬(c2 = c3 ∧ c1 ≠ c2) := by decide

/-- Where the first bit is not in the majority, the second is: no tick gets as far as R3. -/
theorem eq_maj_second_of_first_ne : ∀ c1 c2 c3 : Bool, c1 ≠ maj c1 c2 c3 → c2 = maj c1 c2 c3 := by decide

/-- Settles O25: the two facts of three bits, at the clocking taps 8, 10 and 10. -/
theorem majorityIsTwoOfThree : Obligations.MajorityIsTwoOfThree :=
  fun r => ⟨maj_eq_true_iff (clk1 r) (clk2 r) (clk3 r), two_le_count_maj (clk1 r) (clk2 r) (clk3 r)⟩

theorem clockTick_of_first {r : Regs} (h : clk1 r = maj (clk1 r) (clk2 r) (clk3 r)) :
    clockTick r = { r with r1 := adv1 r.r1 } := if_pos h

theorem clockTick_of_not_first {r : Regs} (h : clk1 r ≠ maj (clk1 r) (clk2 r) (clk3 r)) :
    clockTick r = { r with r2 := adv2 r.r2 } :=
  (if_neg h).trans (if_pos (eq_maj_second_of_first_ne _ _ _ h))

/-- Settles O27: R1's clocking bit is in the majority unless the other two agree against it. -/
theorem minorityBitPicksR2 : Obligations.MinorityBitPicksR2 := by
  rintro r _ _ _ rfl rfl rfl
  have hfirst := eq_maj_first_iff (clk1 r) (clk2 r) (clk3 r)
  exact ⟨fun h => clockTick_of_first (hfirst.2 h), fun h => clockTick_of_not_first fun heq => hfirst.1 heq h⟩

/-- Settles O26: the first two branches of the tick; in each row of the table the clocking bits name the branch. -/
theorem fixedPrioritySelect : Obligations.FixedPrioritySelect := by
  intro r
  obtain ⟨hmajority, hminority⟩ := minorityBitPicksR2 r _ _ _ rfl rfl rfl
  refine ⟨clockTick_of_first, fun h _ => clockTick_of_not_first h, ?table⟩
  case table =>
    generalize r.r1.getLsbD 8 = c1, r.r2.getLsbD 10 = c2, r.r3.getLsbD 10 = c3 at hmajority hminority ⊢
    match c1, c2, c3 with
    | false, false, false | false, false, true | false, true, false | true, false, true | true, true, false
    | true, true, true => exact hmajority (by decide)
    | false, true, true | true, false, false => exact hminority (by decide)

/-! ### R3 after mixing (R70) -/

@[simp] theorem clockTick_r3 (r : Regs) : (clockTick r).r3 = r.r3 := by
  by_cases h : clk1 r = maj (clk1 r) (clk2 r) (clk3 r)
  · rw [clockTick_of_first h]
  · rw [clockTick_of_not_first h]

@[simp] theorem clockTicks_r3 (n : Nat) (r : Regs) : (clockTicks n r).r3 = r.r3 := by
  induction n with
  | zero => rfl
  | succ n ih => rw [clockTicks_succ, clockTick_r3, ih]

@[simp] theorem initEffect_regs (k : Key) (s : State) : (initEffect k s).regs = loadKey k := rfl
@[simp] theorem initEffect_phase (k : Key) (s : State) : (initEffect k s).phase = s.phase := rfl

/-- After INIT, R3 is what mixing left in it (R70, R80). -/
theorem loadKey_r3 (k : Key) : (loadKey k).r3 = (mixSequence (keySequence k) zeroRegs).r3 := clockTicks_r3 _ _

/-- Settles O28: of the events of a step, those that write the registers otherwise only clock them, which leaves R3. -/
theorem r3NeverAdvancesAfterMixing : Obligations.R3NeverAdvancesAfterMixing := by
  refine ⟨clockTick_r3, ?step, ?init⟩
  case step =>
    intro s t h hne
    cases stepEffect_of_step h with
    | transaction i ms htrans hreset hphase =>
      obtain ⟨k, rfl, -⟩ | ⟨c, -, -, he⟩ | ⟨-, he⟩ := commandEffect_cases i (s.setMoves ms)
      · exact .inr (.inr ⟨k, acceptedNow_of_transacted htrans⟩)
      · exact absurd (by simp [he]) hne
      · exact absurd (by simp [he]) hne
    | acceptance i ms htick hacc hreset hphase =>
      obtain ⟨k, rfl, -⟩ | ⟨c, -, -, -, he⟩ | ⟨-, he⟩ := accept_cases i (s.setMoves ms)
      · exact .inr (.inr ⟨k, hacc⟩)
      · exact absurd (by simp [he]) hne
      · exact absurd (by simp [he]) hne
    | reset ms hreset hacc => exact .inl hreset
    | mix ms hreset hacc hphase => exact .inr (.inl hphase)
    | hold ms hreset hacc => exact absurd (by simp) hne
    | warm ms hreset hacc hphase => exact absurd (by simp [warmTick]) hne
    | transfer ms hreset hacc hphase hready => exact absurd (by simp) hne
  case init =>
    intro s t k hidle h
    rw [exec_idle _ hidle] at h
    cases h
    exact loadKey_r3 k

/-! ### The zero registers (R78) -/

theorem mixTick_false_zeroRegs : mixTick false zeroRegs = zeroRegs := by decide

theorem clockTick_zeroRegs : clockTick zeroRegs = zeroRegs := by decide

theorem clockTicks_zeroRegs (n : Nat) : clockTicks n zeroRegs = zeroRegs := by
  induction n with
  | zero => rfl
  | succ n ih => rw [clockTicks, clockTick_zeroRegs, ih]

theorem keystream_zeroRegs (n : Nat) : keystream n zeroRegs = List.replicate n false := by
  induction n with
  | zero => rfl
  | succ n ih => rw [keystream, clockTick_zeroRegs, ih, List.replicate_succ]; rfl

theorem mixSequence_false_zeroRegs (n : Nat) : mixSequence (List.replicate n false) zeroRegs = zeroRegs := by
  induction n with
  | zero => rfl
  | succ n ih => rwa [mixSequence, List.replicate_succ, List.foldl_cons, mixTick_false_zeroRegs]

theorem msbBits_zero (w : Nat) : msbBits 0#w = List.replicate w false :=
  List.eq_replicate_iff.2 ⟨by simp [msbBits], by simp [msbBits]⟩

theorem keySequence_zero : keySequence 0#64 = List.replicate 64 false :=
  (keySequence_eq_msbBits 0#64).trans (msbBits_zero 64)

theorem loadKey_zero : loadKey 0#64 = zeroRegs := by
  rw [loadKey, keySequence_zero, mixSequence_false_zeroRegs, clockTicks_zeroRegs]

/-- A NEXT that finds the registers zero keeps them zero and sends bits 0. -/
theorem exec_next_of_zeroRegs {t : State} (c : Nat) (hidle : t.phase = .idle) (hinit : t.initialized = true)
    (hregs : t.regs = zeroRegs) :
    ∃ u, exec (.next c) t = .next u ∧ u.regs = zeroRegs ∧ u.sent = t.sent ++ List.replicate c false := by
  refine ⟨produce c (carryOut t), ?_, ?_, ?_⟩
  · exact (exec_idle _ hidle).trans (congrArg Host.Outcome.next (nextEffect_of_initialized c hinit))
  · rw [produce_regs, carryOut_regs, hregs, clockTicks_zeroRegs]
  · rw [produce_sent, carryOut_regs, carryOut_sent, hregs, keystream_zeroRegs]

/-- Settles O29: INIT 0 mixes 64 zero bits into zero registers, and the ticks after it keep them and send bits 0. -/
theorem zeroKeyGivesZeroKeystream : Obligations.ZeroKeyGivesZeroKeystream := by
  refine ⟨mixTick_false_zeroRegs, clockTick_zeroRegs, clockTick_zeroRegs, fun s c hidle => ?_⟩
  have hregs : (initEffect 0#64 s).regs = zeroRegs := by rw [initEffect_regs, loadKey_zero]
  have hready : (initEffect 0#64 s).phase = .idle := (initEffect_phase 0#64 s).trans hidle
  obtain ⟨u, hnext, hzero, hsent⟩ := exec_next_of_zeroRegs c hready (initEffect_initialized 0#64 s) hregs
  rw [initEffect_sent] at hsent
  exact ⟨initEffect 0#64 s, u, exec_idle _ hidle, hregs, hnext, hzero, hsent⟩

end Sys2Proof.Machine
end

section
/-! PROOFS. The sequencer, tick by tick: MIX, WARM, the transfer and the hold in GEN, and the runs of ticks that differ
in their holds only (40_datapath.md R73 to R77). -/

namespace Sys2Proof.Machine

/-! ### One tick of each busy phase (R73 to R77) -/

theorem keyBit_of_le {k : Key} {j : TickCount} (h : j.toNat ≤ 63) : keyBit k j = k.getLsbD (63 - j.toNat) := if_pos h

/-- A tick without reset is one action of the sequencer, with the move used up. -/
theorem step_tick_run {s : State} {p : Inputs} {rest : List HostMove} (hm : s.moves = .tick p :: rest)
    (hr : p.rst = false) : step s = .next (sequencerTick p (s.setMoves rest)) := by
  rw [step_tick hm, tick_run _ hr]

/-- Settles O30: the last mixing tick goes on to WARM, and every other one counts J up. -/
theorem step_mixPhaseTick : Obligations.MixPhaseTick := by
  rintro s p rest b hp hj hm hr rfl
  rw [step_tick_run hm hr, sequencerTick_mix (s := s.setMoves rest) p hp, ← keyBit_of_le hj]
  by_cases hlast : s.j = 63#7
  · have heq : s.j.toNat = 63 := congrArg BitVec.toNat hlast
    rw [mixPhaseTick_last (s := s.setMoves rest) hlast, if_pos heq, if_pos heq]
    rfl
  · have hne : s.j.toNat ≠ 63 := fun h => hlast (BitVec.eq_of_toNat_eq h)
    rw [mixPhaseTick_more (s := s.setMoves rest) hlast, if_neg hne, if_neg hne, ← hp]
    rfl

/-- Settles O31: the tick at J = 99 ends INIT, and every other one counts J up, without a wrap but at J = 127. -/
theorem step_warmPhaseTick : Obligations.WarmPhaseTick := by
  intro s p rest hp hm hr
  have hvalid : ksValid s = false := by simp [ksValid, hp]
  rw [step_tick_run hm hr, sequencerTick_warm (s := s.setMoves rest) p hp]
  refine ⟨hvalid, ?_⟩
  by_cases hlast : s.j = 99#7
  · refine ⟨0#7, fun _ => rfl, fun hne => absurd hlast hne, ?_⟩
    rw [warmPhaseTick_last (s := s.setMoves rest) hlast, if_pos hlast, if_pos hlast]
    rfl
  · refine ⟨s.j + 1#7, fun h => absurd h hlast, fun _ hne => ?_, ?_⟩
    · bv_omega
    · rw [warmPhaseTick_more (s := s.setMoves rest) hlast, if_neg hlast, if_neg hlast, ← hp]
      rfl

/-- Settles O32: the bit that is sent is the one on `ks_bit`; at REM = 1 the transfer is the last one. -/
theorem keystreamTransferTick : Obligations.KeystreamTransferTick := by
  intro s p rest hp hpos hlt hm hr hk
  have hbit : ksBit s = outBit s.regs := ksBit_of_gen hp
  refine ⟨hbit, ?_⟩
  rw [step_tick_run hm hr, sequencerTick_gen (s := s.setMoves rest) p hp, genPhaseTick, if_pos hk, hbit]
  by_cases hlast : s.rem = 1
  · rw [transferTick_last (s := s.setMoves rest) hlast, if_pos hlast, hlast]
    rfl
  · rw [transferTick_more (s := s.setMoves rest) hlast, State.setMoves_rem, State.setMoves_countWidth,
      remPred_of_pos hpos hlt, if_neg hlast, ← hp]
    rfl

/-- In GEN, a tick with ks_ready = 0 does nothing (R76). -/
theorem tick_gen_hold {s : State} {p : Inputs} (hp : s.phase = .gen) (hr : p.rst = false) (hk : p.ksReady = false) :
    tick p s = s := by
  rw [tick_run s hr, sequencerTick_gen p hp, genPhaseTick, if_neg (by simp [hk])]

/-- Settles O33: a hold leaves the state, and the ports show functions of it. -/
theorem holdTickChangesNothing : Obligations.HoldTickChangesNothing := by
  intro s p rest hp hm hr hk
  have hhold : tick p (s.setMoves rest) = s.setMoves rest := tick_gen_hold hp hr hk
  exact ⟨s.setMoves rest, (step_tick hm).trans (congrArg Host.Outcome.next hhold), rfl, by simp [ksValid, hp], rfl⟩

/-! ### Runs of ticks with holds (R76, R85) -/

/-- A host that offers no command and takes the bit that the block offers. -/
def takingInputs : Inputs := { quietInputs with ksReady := true }

/-- A transfer stays in GEN or ends the NEXT. -/
theorem transferTick_phase {s : State} (hp : s.phase = .gen) :
    (transferTick s).phase = .gen ∨ (transferTick s).phase = .idle := by
  by_cases hlast : s.rem = 1
  · exact .inr (by rw [transferTick_last hlast]; rfl)
  · exact .inl (by rw [transferTick_more hlast]; exact hp)

theorem tick_taking_gen {s : State} (hp : s.phase = .gen) : tick takingInputs s = transferTick s := by
  rw [tick_run s rfl, sequencerTick_gen _ hp]
  rfl

/-- In IDLE, a tick that offers no command does nothing (R106). -/
theorem tick_idle_not_offered {s : State} {p : Inputs} (hp : s.phase = .idle) (hr : p.rst = false)
    (hv : p.cmdValid = false) : tick p s = s := by
  rw [tick_run s hr, sequencerTick_idle p hp, idleTick, if_neg (by simp [hv])]

/-- Without reset or offered commands, a run of ticks from IDLE does nothing. -/
theorem ticks_idle_not_offered {s : State} {ps : List Inputs} (hp : s.phase = .idle)
    (h : ∀ p ∈ ps, p.rst = false ∧ p.cmdValid = false) : ticks ps s = s := by
  induction ps with
  | nil => rfl
  | cons p ps ih =>
    obtain ⟨⟨hr, hv⟩, hps⟩ := List.forall_mem_cons.1 h
    rw [ticks_cons, tick_idle_not_offered hp hr hv, ih hps]

/-- Without reset or offered commands, a run of ticks from GEN depends on the number of the host's takes only. -/
theorem ticks_gen_eq_ticks_taking {s : State} {ps : List Inputs} (hp : s.phase = .gen)
    (h : ∀ p ∈ ps, p.rst = false ∧ p.cmdValid = false) :
    ticks ps s = ticks (List.replicate (ps.countP (·.ksReady)) takingInputs) s := by
  induction ps generalizing s with
  | nil => rfl
  | cons p ps ih =>
    obtain ⟨⟨hr, -⟩, hps⟩ := List.forall_mem_cons.1 h
    cases hk : p.ksReady with
    | false => rw [List.countP_cons_of_neg (by simp [hk]), ticks_cons, tick_gen_hold hp hr hk, ih hp hps]
    | true =>
      rw [List.countP_cons_of_pos hk, List.replicate_succ, ticks_cons, ticks_cons, tick_taking_gen hp,
        tick_busy_congr (q := takingInputs) (by simp [hp]) hr hk, tick_taking_gen hp]
      obtain hgen | hidle := transferTick_phase hp
      · exact ih hgen hps
      · rw [ticks_idle_not_offered hidle hps, ticks_idle_not_offered hidle]
        exact fun q hq => List.eq_of_mem_replicate hq ▸ ⟨rfl, rfl⟩

/-- Settles O48: either run is the run of its takes alone. -/
theorem holdsDoNotChangeTheStream : Obligations.HoldsDoNotChangeTheStream := by
  intro s ps qs hp hps hqs hcount
  rw [ticks_gen_eq_ticks_taking hp hps, ticks_gen_eq_ticks_taking hp hqs, hcount]

end Sys2Proof.Machine
end

section
/-! PROOFS. Each command by itself: its one atomic step and its acceptance tick (41_commands.md R79 to R82, R86). -/

namespace Sys2Proof.Machine

/-! ### The tick that accepts a command (R57) -/

theorem tick_accepted {s : State} {p : Inputs} (hp : s.phase = .idle) (hr : p.rst = false) (hv : p.cmdValid = true) :
    tick p s = accept (decodePort s.countWidth p.cmd) s := by
  rw [tick_run s hr, sequencerTick_idle p hp, idleTick, if_pos hv]

theorem step_accepted {s : State} {p : Inputs} {rest : List HostMove} (hp : s.phase = .idle)
    (hm : s.moves = .tick p :: rest) (hr : p.rst = false) (hv : p.cmdValid = true) :
    step s = .next (accept (decodePort s.countWidth p.cmd) (s.setMoves rest)) := by
  rw [step_tick hm, tick_accepted (s := s.setMoves rest) hp hr hv, State.setMoves_countWidth]

/-- Settles O4: NOP's effect and its acceptance step are the same write of ERR. -/
theorem nopOnlyClearsErr : Obligations.NopOnlyClearsErr := by
  refine fun s hp => ⟨exec_idle .nop hp, fun p rest hm hr hv hd => ?_⟩
  rw [step_accepted hp hm hr hv, hd]
  rfl

/-- Settles O6: the accepting tick is INIT's acceptance step. -/
theorem initAcceptanceStep : Obligations.InitAcceptanceStep := by
  intro s p rest k hp hm hr hv hd
  rw [step_accepted hp hm hr hv, hd]
  rfl

/-- Settles O9: the accepting tick is NEXT's acceptance step, and each of its three cases has its lemma. -/
theorem nextAcceptanceStep : Obligations.NextAcceptanceStep := by
  intro s p rest c hp hm hr hv hd
  have hstep : step s = .next (acceptNext c (s.setMoves rest)) := by rw [step_accepted hp hm hr hv, hd]; rfl
  rw [hstep]
  cases hi : s.initialized with
  | false =>
    rw [acceptNext_of_not_initialized (s := s.setMoves rest) c hi, if_pos rfl, ← hi]
    rfl
  | true =>
    rw [if_neg (by decide), ← hi]
    by_cases hc : c = 0
    · subst hc
      rw [acceptNext_zero (s := s.setMoves rest) hi, if_pos rfl]
      rfl
    · rw [acceptNext_pos (s := s.setMoves rest) hi hc, if_neg hc]
      rfl

/-- The opcodes from 3 up are the reserved ones: they report the error, at both levels. -/
theorem commandEffect_of_reserved {i : Instr} (h : 3 ≤ i.opcode.toNat) (s : State) :
    commandEffect i s = raiseErr errIllegalCommand s ∧ accept i s = raiseErr errIllegalCommand s := by
  cases i with
  | nop | init | next => simp [Instr.opcode] at h
  | reserved3 | reserved4 | reserved5 | reserved6 | reserved7 | reserved8 | reserved9 => exact ⟨rfl, rfl⟩
  | reservedA | reservedB | reservedC | reservedD | reservedE | reservedF => exact ⟨rfl, rfl⟩

/-- Settles O10: the thirteen commands are those whose opcode is reserved. -/
theorem reservedRaisesIllegalCommand : Obligations.ReservedRaisesIllegalCommand := by
  intro i hi s hp
  have hopcode : 3 ≤ i.opcode.toNat := by
    revert i
    decide
  refine ⟨?_, fun p rest hm hr hv hd => ?_⟩
  · rw [exec_idle i hp, (commandEffect_of_reserved hopcode s).1]
    rfl
  · rw [step_accepted hp hm hr hv, hd, (commandEffect_of_reserved hopcode _).2]
    rfl

/-! ### NEXT as one atomic step (R81) -/

theorem exec_next {s : State} (c : Nat) (hp : s.phase = .idle) (hi : s.initialized = true) :
    exec (.next c) s = .next (produce c (carryOut s)) :=
  (exec_idle _ hp).trans (congrArg Host.Outcome.next (nextEffect_of_initialized c hi))

theorem exec_next_of_not_initialized {s : State} (c : Nat) (hp : s.phase = .idle) (hi : s.initialized = false) :
    exec (.next c) s = .next (raiseErr errNotInitialized s) :=
  (exec_idle _ hp).trans (congrArg Host.Outcome.next (nextEffect_of_not_initialized c hi))

/-- Producing no bit changes nothing. -/
@[simp] theorem produce_zero (s : State) : produce 0 s = s := by
  simp [produce, keystream, clockTicks, State.emit, State.setRegs]

/-- Settles O8: without a key every count raises the error, and with one the count 0 produces nothing. -/
theorem nextWithoutKeyOrBits : Obligations.NextWithoutKeyOrBits := by
  refine fun s hp => ⟨fun hi c => exec_next_of_not_initialized c hp hi, fun hi => ?_⟩
  rw [exec_next 0 hp hi, produce_zero]
  rfl

/-- The registers of any trajectory of majority-clocking ticks. -/
theorem clockTicks_eq_of_trajectory {n : Nat} {g : Nat → Regs} (hg : ∀ i, i < n → g (i + 1) = clockTick (g i)) :
    clockTicks n (g 0) = g n := by
  induction n with
  | zero => rfl
  | succ n ih => rw [clockTicks_succ, ih fun i hi => hg i (Nat.lt_succ_of_lt hi), hg n (Nat.lt_succ_self n)]

/-- Its keystream is the OUTBIT of each point but the last. -/
theorem keystream_eq_of_trajectory {n : Nat} {g : Nat → Regs} (hg : ∀ i, i < n → g (i + 1) = clockTick (g i)) :
    keystream n (g 0) = (List.range n).map fun i => outBit (g i) := by
  induction n with
  | zero => rfl
  | succ n ih =>
    have hinit : ∀ i, i < n → g (i + 1) = clockTick (g i) := fun i hi => hg i (Nat.lt_succ_of_lt hi)
    rw [keystream_succ, ih hinit, clockTicks_eq_of_trajectory hinit, List.range_succ, List.map_append]
    rfl

/-- Settles O7: NEXT produces the keystream of the trajectory and leaves its last registers. -/
theorem nextEmitsKeystream : Obligations.NextEmitsKeystream := by
  intro s c g hp hi h0 hg
  rw [exec_next c hp hi, ← clockTicks_eq_of_trajectory hg, ← keystream_eq_of_trajectory hg, h0]
  rfl

/-! ### INIT as one atomic step (R80) -/

theorem mixSequence_concat (bits : List Bool) (b : Bool) (r : Regs) :
    mixSequence (bits ++ [b]) r = mixTick b (mixSequence bits r) := by
  simp [mixSequence]

/-- The registers of any trajectory of mixing ticks. -/
theorem mixSequence_eq_of_trajectory {n : Nat} {b : Nat → Bool} {m : Nat → Regs}
    (hm : ∀ j, j < n → m (j + 1) = mixTick (b j) (m j)) : mixSequence ((List.range n).map b) (m 0) = m n := by
  induction n with
  | zero => rfl
  | succ n ih =>
    rw [List.range_succ, List.map_append, List.map_singleton, mixSequence_concat,
      ih fun j hj => hm j (Nat.lt_succ_of_lt hj), hm n (Nat.lt_succ_self n)]

theorem keySequence_eq_map_getLsbD (k : Key) : keySequence k = (List.range 64).map fun j => k.getLsbD (63 - j) :=
  List.map_congr_left fun j hj => by
    have hlt : j < 64 := List.mem_range.1 hj
    rw [keyBit_ofNat k hlt, BitVec.getMsbD_eq_getLsbD]
    simp [hlt]

/-- Settles O5: the key's bits mix along the first trajectory, and the warm-up ticks follow the second. -/
theorem initMixesKeyThenWarmsUp : Obligations.InitMixesKeyThenWarmsUp := by
  intro s k m w hp hzero hm hw0 hw
  have hmixed : mixSequence (keySequence k) zeroRegs = m 64 := by
    rw [keySequence_eq_map_getLsbD, zeroRegs, ← hzero, mixSequence_eq_of_trajectory hm]
  have hready : loadKey k = w 100 := by
    rw [loadKey, hmixed, ← hw0]
    exact clockTicks_eq_of_trajectory hw
  rw [exec_idle _ hp, ← hready]
  rfl

/-! ### What every command leaves unchanged (R22, R26, R31) -/

/-- Settles O11: INIT, a NEXT that produces bits, and the commands that write ERR alone. -/
theorem everyCommandCompletesWithItsFrame : Obligations.EveryCommandCompletesWithItsFrame := by
  intro i s hp
  refine ⟨commandEffect i s, exec_idle i hp, ?_⟩
  have herr := commandEffect_err i s
  obtain ⟨k, rfl, he⟩ | ⟨c, rfl, hi, he⟩ | ⟨-, he⟩ := commandEffect_cases i s
  · rw [he] at herr ⊢
    exact ⟨hp, rfl, rfl, rfl, rfl, List.prefix_rfl, herr, fun h => absurd rfl (h k), fun h => absurd rfl (h k)⟩
  · rw [he] at herr ⊢
    exact ⟨hp, rfl, rfl, rfl, rfl, List.prefix_append _ _, herr, fun _ => ⟨rfl, rfl⟩, fun _ h => absurd rfl (h c)⟩
  · rw [he] at herr ⊢
    exact ⟨hp, rfl, rfl, rfl, rfl, List.prefix_rfl, herr, fun _ => ⟨rfl, rfl⟩, fun _ _ => ⟨rfl, rfl⟩⟩

/-! ### The commands that take one tick (R86, R117) -/

/-- NOP, a reserved opcode, a NEXT that fails and NEXT 0 have nothing left to do after their acceptance. -/
theorem accept_eq_commandEffect {s : State} {i : Instr} (hk : ∀ k, i ≠ .init k)
    (hc : ∀ c, i = .next c → c = 0 ∨ s.initialized = false) : accept i s = commandEffect i s := by
  cases i with
  | init k => exact absurd rfl (hk k)
  | next c =>
    cases hi : s.initialized with
    | false => exact (acceptNext_of_not_initialized c hi).trans (nextEffect_of_not_initialized c hi).symm
    | true =>
      obtain rfl : c = 0 := (hc c rfl).resolve_right (by simp [hi])
      have heffect : nextEffect 0 s = carryOut s := by rw [nextEffect_of_initialized 0 hi, produce_zero]
      exact (acceptNext_zero hi).trans heffect.symm
  | nop | reserved3 | reserved4 | reserved5 | reserved6 | reserved7 | reserved8 | reserved9 | reservedA | reservedB
  | reservedC | reservedD | reservedE | reservedF => rfl

/-- Settles O53: the accepting tick is the acceptance step, which is all of the command's effect. -/
theorem oneTickCommandsAgree : Obligations.OneTickCommandsAgree := by
  rintro s p rest i hp hm hr hv rfl hk hc
  rw [step_accepted hp hm hr hv, accept_eq_commandEffect (s := s.setMoves rest) hk hc]
  exact (exec_idle (s := s.setMoves rest) _ hp).symm

end Sys2Proof.Machine
end

section
/-! PROOFS. Runs of whole commands: a keystream that goes on, an INIT that forgets, and decryption (41_commands.md R83, R84;
20_memory.md R43). -/

namespace Sys2Proof.Machine

/-! ### A run of commands as the composition of their effects -/

@[simp] theorem commandEffect_phase (i : Instr) (s : State) : (commandEffect i s).phase = s.phase := by
  obtain ⟨k, -, h⟩ | ⟨c, -, -, h⟩ | ⟨-, h⟩ := commandEffect_cases i s
  · rw [h, initEffect_phase]
  · rw [h, produce_phase, carryOut_phase]
  · rw [h, State.setErr_phase]

theorem runCommands_cons_idle {s : State} (i : Instr) (is : List Instr) (hp : s.phase = .idle) :
    runCommands (i :: is) s = runCommands is (commandEffect i s) := by
  simp only [runCommands, exec_idle i hp]

/-- The effects of commands, one after the other. -/
def commandEffects (is : List Instr) (s : State) : State := is.foldl (fun t i => commandEffect i t) s

theorem commandEffects_append (is js : List Instr) (s : State) :
    commandEffects (is ++ js) s = commandEffects js (commandEffects is s) := List.foldl_append

/-- From an idle block every command is accepted and none stops. -/
theorem runCommands_idle {s : State} (is : List Instr) (hp : s.phase = .idle) :
    runCommands is s = .next (commandEffects is s) := by
  induction is generalizing s with
  | nil => rfl
  | cons i is ih => exact (runCommands_cons_idle i is hp).trans (ih ((commandEffect_phase i s).trans hp))

/-! ### NEXT goes on with the stream (R83) -/

/-- NOP, reserved commands and NEXT 0 write ERR alone. -/
theorem commandEffect_of_silent {i : Instr} (s : State) (hi : i = .nop ∨ i = .next 0 ∨ 3 ≤ i.opcode.toNat) :
    ∃ e, commandEffect i s = s.setErr e := by
  obtain rfl | rfl | hopcode := hi
  · exact ⟨errNone, rfl⟩
  · cases h : s.initialized with
    | true => exact ⟨errNone, (nextEffect_of_initialized 0 h).trans (produce_zero _)⟩
    | false => exact ⟨errNotInitialized, nextEffect_of_not_initialized 0 h⟩
  · exact ⟨errIllegalCommand, (commandEffect_of_reserved hopcode s).1⟩

theorem commandEffects_of_silent {is : List Instr} (s : State)
    (his : ∀ i ∈ is, i = .nop ∨ i = .next 0 ∨ 3 ≤ i.opcode.toNat) : ∃ e, commandEffects is s = s.setErr e := by
  induction is generalizing s with
  | nil => exact ⟨s.err, rfl⟩
  | cons i is ih =>
    obtain ⟨hi, his⟩ := List.forall_mem_cons.1 his
    obtain ⟨e, he⟩ := commandEffect_of_silent s hi
    obtain ⟨e', he'⟩ := ih (commandEffect i s) his
    exact ⟨e', he'.trans (by rw [he]; rfl)⟩

/-- Settles O46: what stands between the two NEXTs writes ERR, which the second one clears, and the bits produced add up. -/
theorem nextContinuesTheStream : Obligations.NextContinuesTheStream := by
  intro s a b cs hp hi hcs
  have hfirst : commandEffect (.next a) s = produce a (carryOut s) := nextEffect_of_initialized a hi
  obtain ⟨e, he⟩ := commandEffects_of_silent (produce a (carryOut s)) hcs
  have hsecond : commandEffect (.next b) ((produce a (carryOut s)).setErr e) = produce (a + b) (carryOut s) :=
    calc commandEffect (.next b) ((produce a (carryOut s)).setErr e)
        = produce b (carryOut ((produce a (carryOut s)).setErr e)) := nextEffect_of_initialized b hi
      _ = produce b (produce a (carryOut s)) := rfl
      _ = produce (a + b) (carryOut s) := produce_produce a b _
  have hwhole : commandEffect (.next (a + b)) s = produce (a + b) (carryOut s) := nextEffect_of_initialized _ hi
  rw [runCommands_idle _ hp, runCommands_idle _ hp, List.cons_append]
  refine congrArg Host.Outcome.next ?_
  calc commandEffects (cs ++ [.next b]) (commandEffect (.next a) s)
      = commandEffect (.next b) ((produce a (carryOut s)).setErr e) := by
        rw [hfirst, commandEffects_append, he]; rfl
    _ = commandEffect (.next (a + b)) s := hsecond.trans hwhole.symm

/-! ### INIT forgets (R84) -/

/-- The bits that a command appends, and the abstract state it leaves, are functions of the abstract state before it. -/
theorem commandEffect_congr_abstract {s u : State} (i : Instr) (h : s.abstract = u.abstract) :
    (commandEffect i s).abstract = (commandEffect i u).abstract ∧
    (commandEffect i s).sent.drop s.sent.length = (commandEffect i u).sent.drop u.sent.length := by
  obtain ⟨hregs, hinit, herr⟩ := Abstract.mk.inj h
  cases i with
  | init k => exact ⟨rfl, by simp [commandEffect]⟩
  | next c =>
    cases hi : s.initialized with
    | true =>
      simp [commandEffect, nextEffect_of_initialized c hi, nextEffect_of_initialized c (hinit ▸ hi), State.abstract,
        hregs, hinit]
    | false =>
      simp [commandEffect, nextEffect_of_not_initialized c hi, nextEffect_of_not_initialized c (hinit ▸ hi),
        State.abstract, hregs, hinit]
  | nop | reserved3 | reserved4 | reserved5 | reserved6 | reserved7 | reserved8 | reserved9 | reservedA | reservedB
  | reservedC | reservedD | reservedE | reservedF =>
    simp [commandEffect_of_errOnly, State.abstract, acceptanceCode, hregs, hinit]

theorem observe_congr_abstract {s u : State} (is : List Instr) (hs : s.phase = .idle) (hu : u.phase = .idle)
    (h : s.abstract = u.abstract) : observe is s = observe is u := by
  induction is generalizing s u with
  | nil => simp only [observe, h]
  | cons i is ih =>
    obtain ⟨hstate, hbits⟩ := commandEffect_congr_abstract i h
    have herr : (commandEffect i s).err = (commandEffect i u).err := congrArg Abstract.err hstate
    rw [observe_cons_idle i is hs, observe_cons_idle i is hu, herr, hbits,
      ih ((commandEffect_phase i s).trans hs) ((commandEffect_phase i u).trans hu) hstate]

/-- Settles O47: the two abstract states are equal, and every later observation is a function of them. -/
theorem initForgetsTheEarlierState : Obligations.InitForgetsTheEarlierState := by
  intro s u k hs hu
  have habstract : (initEffect k s).abstract = (initEffect k u).abstract := rfl
  exact ⟨initEffect k s, initEffect k u, exec_idle _ hs, exec_idle _ hu, habstract, rfl,
    fun cs => observe_congr_abstract cs hs hu habstract⟩

/-! ### Decryption (R43, R84) -/

/-- The bits that INIT K and NEXT C send are K's alone. -/
theorem runCommands_init_next {s : State} (k : Key) (c : Nat) (hp : s.phase = .idle) :
    ∃ t, runCommands [.init k, .next c] s = .next t ∧ t.sent = s.sent ++ keystream c (loadKey k) :=
  ⟨produce c (carryOut (initEffect k s)), runCommands_idle _ hp, rfl⟩

theorem xorBytes_of_length_eq {data ks : List (BitVec 8)} (h : data.length = ks.length) :
    Codec.xorBytes data ks = some (List.zipWith (· ^^^ ·) data ks) := if_pos h

theorem zipWith_xor_zipWith_xor {data ks : List (BitVec 8)} (h : data.length = ks.length) :
    List.zipWith (· ^^^ ·) (List.zipWith (· ^^^ ·) data ks) ks = data := by
  refine List.ext_getElem (by simp [h]) fun i _ _ => ?_
  simp

/-- Settles O58: both keystreams are the key's, they pack into one buffer, and XOR with it twice is the identity. -/
theorem decryptionUndoesEncryption : Obligations.DecryptionUndoesEncryption := by
  intro s u k payload hs hu
  obtain ⟨t, ht, htsent⟩ := runCommands_init_next k (8 * payload.length) hs
  obtain ⟨v, hv, hvsent⟩ := runCommands_init_next k (8 * payload.length) hu
  obtain ⟨ks, hpack, hlen, -⟩ := packBytes_of_length (keystream_length (8 * payload.length) (loadKey k))
  refine ⟨t, v, ks, ks, ht, hv, ?_, ?_, ?_⟩
  · rw [htsent, List.drop_left, hpack]
  · rw [hvsent, List.drop_left, hpack]
  · rw [xorBytes_of_length_eq hlen.symm, Option.bind_some, xorBytes_of_length_eq (by simp [hlen]),
      zipWith_xor_zipWith_xor hlen.symm]

end Sys2Proof.Machine
end

section
/-! PROOFS. The tick level and the transaction level agree: every tick leads a command on to the state of its one atomic
step, so INIT, NEXT and any run of ticks that ends give what their commands give, and show it (41_commands.md R85 to R87). -/

namespace Sys2Proof.Machine

/-! ### Steps that are ticks -/

/-- One tick as a step, so that what holds of every step holds of every tick. -/
theorem step_one_tick (p : Inputs) (s : State) : step (s.setMoves [.tick p]) = .next ((tick p s).setMoves []) :=
  (step_tick rfl).trans (congrArg Host.Outcome.next (tick_setMoves p s []))

theorem run_succ_of_step (M : Host.Core) {s t : M.State} (n : Nat) (h : M.step s = .next t) :
    M.run (n + 1) s = M.run n t := by
  simp only [Host.Core.run, h]

/-- As many steps as the host has ticks to come are those ticks, and use them up. -/
theorem run_ticks {s : State} {ps : List Inputs} {rest : List HostMove} (hm : s.moves = ps.map .tick ++ rest) :
    Sys2Proof.core.run ps.length s = .next (ticks ps (s.setMoves rest)) := by
  induction ps generalizing s with
  | nil => exact congrArg (Host.Outcome.next ∘ s.setMoves) hm
  | cons p ps ih =>
    have hused : (tick p (s.setMoves (ps.map .tick ++ rest))).setMoves rest = tick p (s.setMoves rest) :=
      (tick_setMoves p (s.setMoves (ps.map .tick ++ rest)) rest).symm
    have hlater := ih (tick_moves p (s.setMoves (ps.map .tick ++ rest)))
    exact (run_succ_of_step Sys2Proof.core _ (step_tick hm)).trans
      (hlater.trans (congrArg (Host.Outcome.next ∘ ticks ps) hused))

/-- Where the ticks after a command's acceptance step reach its whole effect, the steps reach its one atomic step. -/
theorem run_eq_exec {s : State} {p : Inputs} {ps : List Inputs} {rest : List HostMove} {i : Instr} (hp : s.phase = .idle)
    (hm : s.moves = .tick p :: ps.map .tick ++ rest) (hr : p.rst = false) (hv : p.cmdValid = true)
    (hd : decodePort s.countWidth p.cmd = i)
    (heffect : ticks ps (accept i (s.setMoves rest)) = commandEffect i (s.setMoves rest)) :
    Sys2Proof.core.run (ps.length + 1) s = exec i (s.setMoves rest) := by
  have haccept : tick p (s.setMoves rest) = accept i (s.setMoves rest) := by
    rw [tick_accepted (s := s.setMoves rest) hp hr hv, State.setMoves_countWidth, hd]
  have hrun : ticks (p :: ps) (s.setMoves rest) = commandEffect i (s.setMoves rest) := by
    rw [ticks_cons, haccept, heffect]
  rw [exec_idle (s := s.setMoves rest) i hp, ← hrun]
  exact run_ticks (ps := p :: ps) hm

/-! ### The state to which the command in progress leads (R86) -/

/-- INIT's last registers, with IDLE, J = 0 and INITIALIZED = 1. -/
def State.endInit (s : State) (r : Regs) : State := (((s.setRegs r).setPhase .idle).setJ 0#7).setInitialized true

/-- The state in which the command in progress ends: INIT after the mixing and warm-up ticks that are left, NEXT after the
REM bits that are left. An idle block has no command in progress. -/
def State.completed (s : State) : State :=
  match s.phase with
  | .idle => s
  | .mix => s.endInit (clockTicks 100 (mixSequence ((keySequence s.key).drop s.j.toNat) s.regs))
  | .warm => s.endInit (clockTicks (100 - s.j.toNat) s.regs)
  | .gen => ((produce s.rem s).setPhase .idle).setRem 0

theorem completed_idle {s : State} (hp : s.phase = .idle) : s.completed = s := by
  simp [State.completed, hp]

theorem completed_mix {s : State} (hp : s.phase = .mix) :
    s.completed = s.endInit (clockTicks 100 (mixSequence ((keySequence s.key).drop s.j.toNat) s.regs)) := by
  simp [State.completed, hp]

theorem completed_warm {s : State} (hp : s.phase = .warm) :
    s.completed = s.endInit (clockTicks (100 - s.j.toNat) s.regs) := by
  simp [State.completed, hp]

theorem completed_gen {s : State} (hp : s.phase = .gen) :
    s.completed = ((produce s.rem s).setPhase .idle).setRem 0 := by
  simp [State.completed, hp]

/-! ### A tick of a busy phase keeps to it -/

/-- The key bits from J on are that of J and those after it. -/
theorem keySequence_drop {j : TickCount} (k : Key) (hj : j.toNat ≤ 63) :
    (keySequence k).drop j.toNat = keyBit k j :: (keySequence k).drop (j.toNat + 1) := by
  have hlt : j.toNat < (keySequence k).length := by
    simp only [keySequence, Config.mixTicks, List.length_map, List.length_range]
    omega
  rw [List.drop_eq_getElem_cons hlt]
  simp [keySequence]

/-- Below 127, J counts up by one (R29). -/
theorem tickCount_succ {j : TickCount} (h : j.toNat < 127) : (j + 1#7).toNat = j.toNat + 1 := by
  rw [BitVec.toNat_add]
  exact Nat.mod_eq_of_lt (Nat.succ_lt_succ h)

theorem completed_mixPhaseTick {s : State} (hp : s.phase = .mix) (hj : s.j.toNat ≤ 63) :
    (mixPhaseTick s).completed = s.completed := by
  rw [completed_mix hp, keySequence_drop s.key hj]
  by_cases hlast : s.j = 63#7
  · rw [mixPhaseTick_last hlast, completed_warm rfl, hlast]
    rfl
  · rw [mixPhaseTick_more hlast, completed_mix (by exact hp), ← tickCount_succ (by omega)]
    rfl

theorem completed_warmPhaseTick {s : State} (hp : s.phase = .warm) (hj : s.j.toNat ≤ 99) :
    (warmPhaseTick s).completed = s.completed := by
  rw [completed_warm hp]
  by_cases hlast : s.j = 99#7
  · rw [warmPhaseTick_last hlast, completed_idle rfl, hlast]
    rfl
  · have hleft : 100 - s.j.toNat = 100 - (s.j + 1#7).toNat + 1 := by
      have hsucc : (s.j + 1#7).toNat = s.j.toNat + 1 := tickCount_succ (by omega)
      have hle : (s.j + 1#7).toNat ≤ 99 := tickCount_succ_le (by decide) hj hlast
      omega
    rw [warmPhaseTick_more hlast, completed_warm (by exact hp), hleft]
    rfl

theorem completed_transferTick {s : State} (hp : s.phase = .gen) (hpos : 1 ≤ s.rem) (hlt : s.rem < 2 ^ s.countWidth) :
    (transferTick s).completed = s.completed := by
  rw [completed_gen hp]
  by_cases hlast : s.rem = 1
  · rw [transferTick_last hlast, completed_idle rfl, hlast]
    rfl
  · have hsplit : produce s.rem s = produce (s.rem - 1) (produce 1 s) := by
      rw [produce_produce, Nat.add_sub_cancel' hpos]
    rw [transferTick_eq_produce_one (by omega) hlt, completed_gen (by exact hp), hsplit]
    rfl

/-! ### The acceptance step begins it -/

theorem completed_acceptInit {s : State} (k : Key) (hp : s.phase = .idle) (hj : s.j = 0#7) :
    (acceptInit k s).completed = initEffect k s := by
  rw [completed_mix rfl]
  exact State.ext rfl rfl rfl hp.symm hj.symm rfl rfl rfl rfl rfl

theorem completed_acceptNext {s : State} {c : Nat} (hp : s.phase = .idle) (hrem : s.rem = 0) (hi : s.initialized = true)
    (hc : c ≠ 0) : (acceptNext c s).completed = produce c (carryOut s) := by
  rw [acceptNext_pos hi hc, completed_gen rfl]
  exact State.ext rfl rfl rfl hp.symm rfl hrem.symm rfl rfl rfl rfl

/-- An accepted command leads to the state of its one atomic step. -/
theorem completed_accept {s : State} (i : Instr) (hp : s.phase = .idle) (hinv : s.PhaseInv) :
    (accept i s).completed = commandEffect i s := by
  obtain ⟨hj, hrem, -⟩ := (State.phaseInv_idle hp).1 hinv
  by_cases hinit : ∃ k, i = .init k
  · obtain ⟨k, rfl⟩ := hinit
    exact completed_acceptInit k hp hj
  · by_cases hnext : ∃ c, i = .next c ∧ c ≠ 0 ∧ s.initialized = true
    · obtain ⟨c, rfl, hc, hi⟩ := hnext
      exact (completed_acceptNext hp hrem hi hc).trans (nextEffect_of_initialized c hi).symm
    · have honeTick : accept i s = commandEffect i s := accept_eq_commandEffect (fun k h => hinit ⟨k, h⟩) fun c h => by
        by_contra hbits
        exact hnext ⟨c, h, by simpa using hbits⟩
      rw [honeTick, completed_idle ((commandEffect_phase i s).trans hp)]

/-! ### INIT and NEXT in ticks (R86) -/

/-- INIT is in progress with n of its 164 ticks left, or it has just ended. -/
def State.InitTicksLeft (s : State) (n : Nat) : Prop :=
  match s.phase with
  | .idle => n = 0
  | .mix => s.j.toNat ≤ 63 ∧ s.j.toNat + n = 164
  | .warm => s.j.toNat ≤ 99 ∧ s.j.toNat + n = 100
  | .gen => False

theorem initTicksLeft_mix {s : State} {n : Nat} (hp : s.phase = .mix) :
    s.InitTicksLeft n ↔ s.j.toNat ≤ 63 ∧ s.j.toNat + n = 164 := by
  simp [State.InitTicksLeft, hp]

theorem initTicksLeft_warm {s : State} {n : Nat} (hp : s.phase = .warm) :
    s.InitTicksLeft n ↔ s.j.toNat ≤ 99 ∧ s.j.toNat + n = 100 := by
  simp [State.InitTicksLeft, hp]

theorem initTicksLeft_mixPhaseTick {s : State} {n : Nat} (hp : s.phase = .mix) (h : s.InitTicksLeft (n + 1)) :
    (mixPhaseTick s).InitTicksLeft n := by
  obtain ⟨hj, hleft⟩ := (initTicksLeft_mix hp).1 h
  by_cases hlast : s.j = 63#7
  · have h63 : s.j.toNat = 63 := congrArg BitVec.toNat hlast
    have h100 : 0 + n = 100 := by omega
    rw [mixPhaseTick_last hlast]
    exact (initTicksLeft_warm rfl).2 ⟨Nat.zero_le 99, h100⟩
  · have hsucc : (s.j + 1#7).toNat = s.j.toNat + 1 := tickCount_succ (by omega)
    rw [mixPhaseTick_more hlast]
    exact (initTicksLeft_mix (by exact hp)).2 ⟨tickCount_succ_le (by decide) hj hlast, by simp [hsucc]; omega⟩

theorem initTicksLeft_warmPhaseTick {s : State} {n : Nat} (hp : s.phase = .warm) (h : s.InitTicksLeft (n + 1)) :
    (warmPhaseTick s).InitTicksLeft n := by
  obtain ⟨hj, hleft⟩ := (initTicksLeft_warm hp).1 h
  by_cases hlast : s.j = 99#7
  · have h99 : s.j.toNat = 99 := congrArg BitVec.toNat hlast
    have hnone : n = 0 := by omega
    rw [warmPhaseTick_last hlast]
    exact hnone
  · have hsucc : (s.j + 1#7).toNat = s.j.toNat + 1 := tickCount_succ (by omega)
    rw [warmPhaseTick_more hlast]
    exact (initTicksLeft_warm (by exact hp)).2 ⟨tickCount_succ_le (by decide) hj hlast, by simp [hsucc]; omega⟩

/-- INIT ends in IDLE. -/
theorem phase_of_initTicksLeft_zero {s : State} (h : s.InitTicksLeft 0) : s.phase = .idle := by
  cases hp : s.phase with
  | idle => rfl
  | mix =>
    obtain ⟨hj, hleft⟩ := (initTicksLeft_mix hp).1 h
    omega
  | warm =>
    obtain ⟨hj, hleft⟩ := (initTicksLeft_warm hp).1 h
    omega
  | gen => simp [State.InitTicksLeft, hp] at h

/-- As many ticks as INIT has left complete it. -/
theorem ticks_eq_completed_of_initTicksLeft {s : State} {ps : List Inputs} (h : s.InitTicksLeft ps.length)
    (hrst : ∀ p ∈ ps, p.rst = false) : ticks ps s = s.completed := by
  induction ps generalizing s with
  | nil => exact (completed_idle (phase_of_initTicksLeft_zero h)).symm
  | cons p ps ih =>
    obtain ⟨hr, hrst⟩ := List.forall_mem_cons.1 hrst
    rw [List.length_cons] at h
    rw [ticks_cons, tick_run s hr]
    cases hp : s.phase with
    | idle => simp [State.InitTicksLeft, hp] at h
    | mix =>
      rw [sequencerTick_mix p hp, ih (initTicksLeft_mixPhaseTick hp h) hrst,
        completed_mixPhaseTick hp ((initTicksLeft_mix hp).1 h).1]
    | warm =>
      rw [sequencerTick_warm p hp, ih (initTicksLeft_warmPhaseTick hp h) hrst,
        completed_warmPhaseTick hp ((initTicksLeft_warm hp).1 h).1]
    | gen => simp [State.InitTicksLeft, hp] at h

/-- Settles O51: the acceptance step starts INIT, the 164 ticks complete it, and what it leads to is its one atomic step. -/
theorem initLevelsAgree : Obligations.InitLevelsAgree := by
  intro s k p ps rest hp hj hm hr hv hd hlen hrst
  have hleft : (acceptInit k (s.setMoves rest)).InitTicksLeft ps.length := by
    rw [hlen]
    exact (initTicksLeft_mix rfl).2 ⟨Nat.zero_le 63, rfl⟩
  have heffect : ticks ps (acceptInit k (s.setMoves rest)) = initEffect k (s.setMoves rest) :=
    (ticks_eq_completed_of_initTicksLeft hleft hrst).trans (completed_acceptInit k hp hj)
  have hrun := run_eq_exec hp hm hr hv hd heffect
  rw [hlen] at hrun
  exact hrun

/-- The ticks that end with the last of a NEXT's transfers complete it. -/
theorem ticks_gen_eq_completed {s : State} {ps : List Inputs} {q : Inputs} (hp : s.phase = .gen)
    (hlt : s.rem < 2 ^ s.countWidth) (hrst : ∀ x ∈ ps ++ [q], x.rst = false) (hq : q.ksReady = true)
    (hcount : ps.countP (·.ksReady) + 1 = s.rem) : ticks (ps ++ [q]) s = s.completed := by
  have hbefore : ∀ p ∈ ps, p.rst = false := fun p h => hrst p (List.mem_append_left _ h)
  have hlast : s.rem - ps.countP (·.ksReady) = 1 := by omega
  have hconcat : ticks (ps ++ [q]) s = tick q (ticks ps s) := List.foldl_append
  rw [hconcat, ticks_gen_eq_produce hp hlt hbefore (by omega), hlast, tick_run _ (hrst q (by simp)),
    sequencerTick_gen q (by exact hp), genPhaseTick, if_pos hq, transferTick_last rfl, completed_gen hp, ← hcount,
    ← produce_produce]
  rfl

/-- Settles O52: the acceptance step starts NEXT, the ticks complete it, and what it leads to is its one atomic step. -/
theorem nextLevelsAgree : Obligations.NextLevelsAgree := by
  intro s c p ps q rest hp hrem hi hm hr hv hd hrst hq hcount
  rw [List.countP_append, List.countP_singleton, if_pos hq] at hcount
  have hwell : (Instr.next c).wellFormed s.countWidth = true := hd ▸ decodePort_wellFormed _ _
  have hlt : c < 2 ^ s.countWidth := of_decide_eq_true hwell
  have hstart : acceptNext c (s.setMoves rest) = ((carryOut (s.setMoves rest)).setRem c).setPhase .gen :=
    acceptNext_pos hi (by omega)
  have heffect : ticks (ps ++ [q]) (acceptNext c (s.setMoves rest)) = nextEffect c (s.setMoves rest) := by
    rw [nextEffect_of_initialized (s := s.setMoves rest) c hi,
      ← completed_acceptNext (s := s.setMoves rest) hp hrem hi (by omega), hstart]
    exact ticks_gen_eq_completed rfl hlt hrst hq hcount
  have hrun := run_eq_exec hp hm hr hv hd heffect
  rw [List.length_append] at hrun
  exact hrun

/-! ### Any run of ticks that ends (R85, R86) -/

theorem acceptedAlong_cons_accepted {s : State} {p : Inputs} (ps : List Inputs) (hr : p.rst = false)
    (hv : p.cmdValid = true) (hp : s.phase = .idle) :
    acceptedAlong (p :: ps) s = decodePort s.countWidth p.cmd :: acceptedAlong ps (tick p s) := if_pos ⟨hr, hv, hp⟩

theorem acceptedAlong_cons_other {s : State} {p : Inputs} (ps : List Inputs)
    (h : ¬(p.cmdValid = true ∧ s.phase = .idle)) : acceptedAlong (p :: ps) s = acceptedAlong ps (tick p s) :=
  if_neg fun hall => h hall.2

/-- A tick that accepts no command leads to the same state as before. -/
theorem completed_tick_other {s : State} {p : Inputs} (hinv : s.PhaseInv) (hr : p.rst = false)
    (h : ¬(p.cmdValid = true ∧ s.phase = .idle)) : (tick p s).completed = s.completed := by
  cases hp : s.phase with
  | idle => rw [tick_idle_not_offered hp hr (by simpa [hp] using h)]
  | mix =>
    obtain ⟨hj, -⟩ := (State.phaseInv_mix hp).1 hinv
    rw [tick_run s hr, sequencerTick_mix p hp, completed_mixPhaseTick hp hj]
  | warm =>
    obtain ⟨hj, -⟩ := (State.phaseInv_warm hp).1 hinv
    rw [tick_run s hr, sequencerTick_warm p hp, completed_warmPhaseTick hp hj]
  | gen =>
    obtain ⟨-, hpos, hlt, -⟩ := (State.phaseInv_gen hp).1 hinv
    rw [tick_run s hr, sequencerTick_gen p hp, genPhaseTick]
    split
    · exact completed_transferTick hp hpos hlt
    · rfl

/-- A tick that accepts a command leads to the state of its one atomic step. -/
theorem completed_tick_accepted {s : State} {p : Inputs} (hinv : s.PhaseInv) (hr : p.rst = false)
    (hv : p.cmdValid = true) (hp : s.phase = .idle) :
    (tick p s).completed = commandEffect (decodePort s.countWidth p.cmd) s := by
  rw [tick_accepted hp hr hv, completed_accept _ hp hinv]

theorem phaseInv_tick {s : State} (p : Inputs) (hinv : s.PhaseInv) : (tick p s).PhaseInv :=
  phaseInv_of_stepEffect (s := s.setMoves [.tick p]) (t := (tick p s).setMoves []) hinv
    (stepEffect_of_step (step_one_tick p s))

/-- The simulation: from the state to which a run's first state leads, the commands accepted along the run give the state to
which its last one leads. -/
theorem runCommands_acceptedAlong {s : State} {ps : List Inputs} (hinv : s.PhaseInv) (hrst : ∀ p ∈ ps, p.rst = false) :
    runCommands (acceptedAlong ps s) s.completed = .next (ticks ps s).completed := by
  induction ps generalizing s with
  | nil => rfl
  | cons p ps ih =>
    obtain ⟨hr, hrst⟩ := List.forall_mem_cons.1 hrst
    have hlater := ih (phaseInv_tick p hinv) hrst
    by_cases h : p.cmdValid = true ∧ s.phase = .idle
    · obtain ⟨hv, hp⟩ := h
      rw [acceptedAlong_cons_accepted ps hr hv hp, completed_idle hp, runCommands_cons_idle _ _ hp,
        ← completed_tick_accepted hinv hr hv hp]
      exact hlater
    · rw [acceptedAlong_cons_other ps h, ← completed_tick_other hinv hr h]
      exact hlater

/-- Settles O54: an idle state leads to itself, so the simulation joins the two ends of the run. -/
theorem tickRunsAreCommandRuns : Obligations.TickRunsAreCommandRuns := by
  rintro s ps ⟨-, -, hinv⟩ hp hrst hend
  have hrun := runCommands_acceptedAlong hinv hrst
  rwa [completed_idle hp, completed_idle hend] at hrun

/-! ### The observation of a run that ends (R87) -/

/-- No tick takes back a bit that was sent, a reset included (R109). -/
theorem sent_prefix_tick (p : Inputs) (s : State) : s.sent <+: (tick p s).sent := by
  obtain h | ⟨-, -, h⟩ | ⟨c, -, -, h⟩ := bitsAreSentInOrderByTransfersOnly _ _ (step_one_tick p s)
  · exact ⟨[], (List.append_nil _).trans h.symm⟩
  · exact ⟨_, h.symm⟩
  · exact ⟨_, h.symm⟩

theorem sent_prefix_completed (s : State) : s.sent <+: s.completed.sent := by
  cases hp : s.phase with
  | idle => rw [completed_idle hp]
  | mix => rw [completed_mix hp]; exact List.prefix_rfl
  | warm => rw [completed_warm hp]; exact List.prefix_rfl
  | gen => rw [completed_gen hp]; exact List.prefix_append _ _

/-- What is appended to a list in two stages. -/
theorem drop_append_drop_of_prefix {a b c : List Bool} (hab : a <+: b) (hbc : b <+: c) :
    b.drop a.length ++ c.drop b.length = c.drop a.length := by
  obtain ⟨x, rfl⟩ := hab
  obtain ⟨y, rfl⟩ := hbc
  simp

/-- The rest of a run shows the bits that its command in progress still sends, and then its commands as atomic steps. -/
theorem watch_eq_observe {s : State} {ps : List Inputs} (hinv : s.PhaseInv) (hrst : ∀ p ∈ ps, p.rst = false)
    (hend : (ticks ps s).phase = .idle) :
    watch ps s = some (s.completed.sent.drop s.sent.length, observe (acceptedAlong ps s) s.completed) := by
  induction ps generalizing s with
  | nil =>
    have hidle : s.phase = .idle := hend
    rw [watch_nil_idle hidle, completed_idle hidle, List.drop_length]
    rfl
  | cons p ps ih =>
    obtain ⟨hr, hrst⟩ := List.forall_mem_cons.1 hrst
    have hlater := ih (phaseInv_tick p hinv) hrst hend
    by_cases h : p.cmdValid = true ∧ s.phase = .idle
    · obtain ⟨hv, hp⟩ := h
      have heffect := completed_tick_accepted hinv hr hv hp
      have herr : (tick p s).err = (commandEffect (decodePort s.countWidth p.cmd) s).err := by
        rw [tick_accepted hp hr hv, accept_err, commandEffect_err]
      have hsent : (tick p s).sent = s.sent := by rw [tick_accepted hp hr hv, accept_sent]
      rw [watch_cons_accepted ps hr hv hp, hlater, acceptedAlong_cons_accepted ps hr hv hp, completed_idle hp,
        observe_cons_idle _ _ hp, heffect, herr, hsent, List.drop_length]
      rfl
    · have hbits := drop_append_drop_of_prefix (sent_prefix_tick p s) (sent_prefix_completed (tick p s))
      rw [completed_tick_other hinv hr h] at hbits hlater
      rw [watch_cons_other ps hr h, hlater, acceptedAlong_cons_other ps h, ← hbits]
      rfl

/-! ### A run that has ended (R87, R106) -/

/-- The next step of an ended run is a tick, and one that offers no command unless it is a reset. -/
theorem step_of_ended {s : State} (h : s.Ended) : ∃ p ms, step s = .next (tick p (s.setMoves ms)) ∧
    inputsNow s = some p ∧ transactedNow s = none ∧
    (p.rst = false → p.cmdValid = false ∧ offersInRun ms = false) := by
  obtain ⟨-, hoffers⟩ := h
  cases hm : s.moves with
  | nil =>
    refine ⟨quietInputs, s.moves, step_quiet hm, ?_, ?_, fun _ => ⟨rfl, hoffers⟩⟩
    · simp [inputsNow, hm]
    · simp [transactedNow, fetch, hm]
  | cons m rest =>
    rw [hm] at hoffers
    cases m with
    | command c => simp [offersInRun] at hoffers
    | tick p =>
      refine ⟨p, rest, step_tick hm, ?_, ?_, fun hr => (offersInRun_cons_tick rest hr).1 hoffers⟩
      · simp [inputsNow, hm]
      · simp [transactedNow, fetch, hm]

theorem acceptedNow_of_ended {s : State} (h : s.Ended) : acceptedNow s = none := by
  obtain ⟨p, ms, -, hin, hnone, hquiet⟩ := step_of_ended h
  rw [acceptedNow_of_not_transacted hnone, tickAcceptedNow_of_inputs hin, if_neg]
  rintro ⟨hr, hv, -⟩
  simp [(hquiet hr).1] at hv

/-- Settles O60: an idle state has no command in progress, so its watch is its observation; and an ended run's ticks, up to
the next reset, are idle ones. -/
theorem endedRunShowsItsCommands : Obligations.EndedRunShowsItsCommands := by
  refine ⟨?shows, ?stays⟩
  case shows =>
    rintro s ps ⟨-, -, hinv⟩ hp hrst hend
    rw [observeTicks_idle ps hp, watch_eq_observe hinv hrst hend, completed_idle hp]
    rfl
  case stays =>
    intro s t hended hstep
    obtain ⟨p, ms, htick, hin, -, hquiet⟩ := step_of_ended hended
    refine ⟨acceptedNow_of_ended hended, fun hreset => ?_⟩
    have hr : p.rst = false := (resetNow_of_inputs hin).symm.trans hreset
    obtain ⟨hv, hoffers⟩ := hquiet hr
    rw [tick_idle_not_offered (s := s.setMoves ms) hended.1 hr hv] at htick
    obtain rfl : s.setMoves ms = t := Host.Outcome.next.inj (htick.symm.trans hstep)
    exact ⟨⟨hended.1, hoffers⟩, rfl, rfl⟩

end Sys2Proof.Machine
end

section
/-! PROOFS. Errors and progress: every state has a next one, an idle block holds its state, and a command that reports an
error changes ERR alone (60_exceptions.md R91 to R106). -/

namespace Sys2Proof.Machine

/-! ### Every state has a next one (R91, R96) -/

/-- Settles O21: the host's next move is none, a tick or a command, and a command is accepted or waits for a tick. -/
theorem noStepStops : Obligations.NoStepStops := by
  intro s
  cases hm : s.moves with
  | nil => exact ⟨_, step_quiet hm⟩
  | cons m rest =>
    cases m with
    | tick p => exact ⟨_, step_tick hm⟩
    | command c =>
      by_cases hp : s.phase = .idle
      · exact ⟨_, (step_command hm hp).trans (exec_idle (s := s.setMoves rest) _ hp)⟩
      · exact ⟨_, step_waiting hm hp⟩

/-! ### An idle block to which nothing is offered (R106) -/

/-- A host with no move left leaves an idle block as it is. -/
theorem step_idle_quiet {s : State} (hp : s.phase = .idle) (hm : s.moves = []) : step s = .next s := by
  rw [step_quiet hm, tick_idle_not_offered hp rfl rfl]

/-- Settles O34: a tick that offers nothing does nothing in IDLE, and a run with no moves repeats the quiet step. -/
theorem idleHoldsItsState : Obligations.IdleHoldsItsState := by
  refine ⟨fun s p rest hp hm hr hv => ?tick, fun s n hp hm => ?run⟩
  case tick =>
    rw [step_tick hm, tick_idle_not_offered (s := s.setMoves rest) hp hr hv]
    rfl
  case run =>
    induction n with
    | zero => rfl
    | succ n ih => exact (run_succ_of_step Sys2Proof.core n (step_idle_quiet hp hm)).trans ih

/-! ### A command that reports an error (R96) -/

/-- A step runs a whole command only as the next move of a host to an idle block. -/
theorem moves_of_transacted {s : State} {i : Instr} (h : transactedNow s = some i) :
    ∃ c rest, s.moves = .command c :: rest ∧ s.phase = .idle ∧ decodePort s.countWidth c = i := by
  cases hm : s.moves with
  | nil => simp [transactedNow, fetch, hm] at h
  | cons m rest =>
    cases m with
    | tick p => simp [transactedNow, fetch, hm] at h
    | command c =>
      by_cases hp : s.phase = .idle
      · rw [transactedNow_of_command hm hp] at h
        exact ⟨c, rest, rfl, hp, Option.some.inj h⟩
      · simp [transactedNow, fetch, hm, hp] at h

/-- A tick accepts a command only when the host offers it, without reset, to an idle block (R57). -/
theorem moves_of_tickAccepted {s : State} {i : Instr} (h : tickAcceptedNow s = some i) :
    ∃ p rest, s.moves = .tick p :: rest ∧ s.phase = .idle ∧ p.rst = false ∧ p.cmdValid = true ∧
      decodePort s.countWidth p.cmd = i := by
  cases hm : s.moves with
  | nil => simp [tickAcceptedNow, inputsNow, hm, quietInputs] at h
  | cons m rest =>
    cases m with
    | command c => by_cases hp : s.phase = .idle <;> simp [tickAcceptedNow, inputsNow, hm, hp] at h
    | tick p =>
      have hin : inputsNow s = some p := by simp [inputsNow, hm]
      rw [tickAcceptedNow_of_inputs hin, Option.ite_none_right_eq_some] at h
      obtain ⟨⟨hr, hv, hp⟩, hi⟩ := h
      exact ⟨p, rest, rfl, hp, hr, hv, Option.some.inj hi⟩

/-- A step that accepts a command uses up the host's move and does the command's effect, or its acceptance step. -/
theorem step_of_accepted {s : State} {i : Instr} (hacc : acceptedNow s = some i) : s.phase = .idle ∧
    (step s = .next (commandEffect i (s.setMoves s.moves.tail)) ∨ step s = .next (accept i (s.setMoves s.moves.tail))) := by
  obtain htrans | ⟨-, htick⟩ := Option.or_eq_some_iff.1 hacc
  · obtain ⟨c, rest, hm, hp, rfl⟩ := moves_of_transacted htrans
    have hstep := (step_command hm hp).trans (exec_idle (s := s.setMoves rest) _ hp)
    rw [hm]
    exact ⟨hp, .inl hstep⟩
  · obtain ⟨p, rest, hm, hp, hr, hv, rfl⟩ := moves_of_tickAccepted htick
    rw [hm]
    exact ⟨hp, .inr (step_accepted hp hm hr hv)⟩

/-- A command whose code is an error writes it into ERR and does nothing else, at both levels. -/
theorem effects_of_error {i : Instr} {s : State} (h : acceptanceCode s.initialized i ≠ errNone) :
    commandEffect i s = s.setErr (acceptanceCode s.initialized i) ∧
    accept i s = s.setErr (acceptanceCode s.initialized i) := by
  constructor
  · obtain ⟨k, rfl, -⟩ | ⟨c, rfl, hi, -⟩ | ⟨-, heffect⟩ := commandEffect_cases i s
    · exact absurd rfl h
    · exact absurd (by rw [hi]; rfl) h
    · exact heffect
  · obtain ⟨k, rfl, -⟩ | ⟨c, rfl, hi, -⟩ | ⟨-, haccept⟩ := accept_cases i s
    · exact absurd rfl h
    · exact absurd (by rw [hi]; rfl) h
    · exact haccept

/-- Settles O13: the step is the effect or the acceptance step of a command whose code is an error, and each writes ERR
alone. -/
theorem errorsArePrecise : Obligations.ErrorsArePrecise := by
  intro s t i hacc hstep herr
  obtain ⟨hp, heffect | haccept⟩ := step_of_accepted hacc
  · obtain rfl := Host.Outcome.next.inj (heffect.symm.trans hstep)
    rw [commandEffect_err] at herr
    rw [(effects_of_error herr).1]
    exact ⟨rfl, hp⟩
  · obtain rfl := Host.Outcome.next.inj (haccept.symm.trans hstep)
    rw [accept_err] at herr
    rw [(effects_of_error herr).2]
    exact ⟨rfl, hp⟩

/-! ### NOT_INITIALIZED along a run of commands (R92) -/

/-- A command makes the block initialised exactly when it is an INIT; none undoes it as one atomic step. -/
theorem commandEffect_initialized_iff (i : Instr) (s : State) :
    (commandEffect i s).initialized = true ↔ s.initialized = true ∨ ∃ k, i = .init k := by
  obtain ⟨k, rfl, h⟩ | ⟨c, rfl, hi, h⟩ | ⟨hk, h⟩ := commandEffect_cases i s
  · simp [h]
  · simp [h]
  · simp [h, hk]

theorem commandEffects_initialized_iff (is : List Instr) (s : State) :
    (commandEffects is s).initialized = true ↔ s.initialized = true ∨ ∃ k, .init k ∈ is := by
  induction is generalizing s with
  | nil => simp [commandEffects]
  | cons i is ih =>
    have hcons : commandEffects (i :: is) s = commandEffects is (commandEffect i s) := rfl
    rw [hcons, ih, commandEffect_initialized_iff, or_assoc, ← exists_or]
    simp only [List.mem_cons, eq_comm (a := i)]

/-- No command as one atomic step writes PHASE. -/
theorem commandEffects_phase (is : List Instr) (s : State) : (commandEffects is s).phase = s.phase := by
  induction is generalizing s with
  | nil => rfl
  | cons i is ih => exact (ih (commandEffect i s)).trans (commandEffect_phase i s)

/-- NEXT reports NOT_INITIALIZED exactly where INITIALIZED = 0, for every count (R81). -/
theorem commandEffect_next_err_iff (c : Nat) (s : State) :
    (commandEffect (.next c) s).err = errNotInitialized ↔ s.initialized = false := by
  rw [commandEffect_err]
  cases s.initialized with
  | false => exact iff_of_true rfl rfl
  | true => exact iff_of_false (by decide : errNone ≠ errNotInitialized) (by decide)

/-- Settles O14: after the run INITIALIZED says whether it holds an INIT, and NEXT reports the error exactly where it is 0. -/
theorem notInitializedExactlyBeforeFirstInit : Obligations.NotInitializedExactlyBeforeFirstInit := by
  intro cs c
  have hidle : (commandEffects cs State.reset).phase = .idle := commandEffects_phase cs State.reset
  have hinit : (commandEffects cs State.reset).initialized = true ↔ ∃ k, .init k ∈ cs := by
    simpa [State.reset] using commandEffects_initialized_iff cs State.reset
  refine ⟨_, _, runCommands_idle cs rfl, exec_idle (.next c) hidle, ?_, fun herr => ?_⟩
  · rw [commandEffect_next_err_iff, ← Bool.not_eq_true, hinit, not_exists]
  · exact nextEffect_of_not_initialized c ((commandEffect_next_err_iff c _).1 herr)

end Sys2Proof.Machine
end

section
/-! PROOFS. Reset and the timing of INIT: what a tick with rst = 1 leaves, what a block without a key does with later
commands, and the 164 ticks of INIT one by one (70_reset_and_hazards.md R108, R109, R117; 40_datapath.md R77). -/

namespace Sys2Proof.Machine

/-! ### A tick with rst = 1 (R108) -/

/-- The host's tick with rst = 1 resets the block and nothing else. -/
theorem step_reset {s : State} {p : Inputs} {rest : List HostMove} (hm : s.moves = .tick p :: rest) (hr : p.rst = true) :
    step s = .next { State.reset with countWidth := s.countWidth, moves := rest, sent := s.sent } :=
  (step_tick hm).trans (congrArg Host.Outcome.next (tick_reset (s.setMoves rest) hr))

/-- The next step of a host whose move is a tick accepts at most what the tick offers. -/
theorem acceptedNow_of_tick {s : State} {p : Inputs} {rest : List HostMove} (hm : s.moves = .tick p :: rest) :
    acceptedNow s =
      if p.rst = false ∧ p.cmdValid = true ∧ s.phase = .idle then some (decodePort s.countWidth p.cmd) else none := by
  have hin : inputsNow s = some p := by simp [inputsNow, hm]
  have hnone : transactedNow s = none := by simp [transactedNow, fetch, hm]
  rw [acceptedNow_of_not_transacted hnone, tickAcceptedNow_of_inputs hin]

/-- Settles O2: reset has priority over the sequencer, and the port's acceptance needs rst = 0. -/
theorem resetTickRestoresResetState : Obligations.ResetTickRestoresResetState := by
  intro s p rest hm hr
  refine ⟨step_reset hm hr, by simp [cmdReady, hr], ?_⟩
  rw [acceptedNow_of_tick hm, if_neg (by simp [hr])]

/-! ### Commands of a block without a key (R92, R109) -/

/-- Without a key, every command but INIT writes ERR alone. -/
theorem commandEffect_of_not_initialized {s : State} {i : Instr} (hs : s.initialized = false) (hi : ∀ k, i ≠ .init k) :
    commandEffect i s = s.setErr (acceptanceCode s.initialized i) := by
  obtain ⟨k, hk, -⟩ | ⟨c, -, hinit, -⟩ | ⟨-, h⟩ := commandEffect_cases i s
  · exact absurd hk (hi k)
  · exact absurd hinit (by simp [hs])
  · exact h

theorem commandEffects_of_not_initialized {s : State} {is : List Instr} (hs : s.initialized = false)
    (his : ∀ k, .init k ∉ is) : ∃ e, commandEffects is s = s.setErr e := by
  induction is generalizing s with
  | nil => exact ⟨s.err, rfl⟩
  | cons i is ih =>
    have hi : ∀ k, i ≠ .init k := fun k h => his k (h ▸ List.mem_cons_self)
    have hfirst := commandEffect_of_not_initialized hs hi
    obtain ⟨e, he⟩ := ih (s := s.setErr (acceptanceCode s.initialized i)) hs fun k h => his k (List.mem_cons_of_mem i h)
    exact ⟨e, (congrArg (commandEffects is) hfirst).trans he⟩

/-- After INIT, NEXT succeeds, whatever the state was. -/
theorem commandEffects_init_next_err (k : Key) (c : Nat) (s : State) :
    (commandEffects [.init k, .next c] s).err = errNone :=
  commandEffect_err (.next c) (initEffect k s)

/-- Settles O3: the reset state has no key, so commands without an INIT write ERR alone, until an INIT gives it one. -/
theorem resetAbandonsCommandInProgress : Obligations.ResetAbandonsCommandInProgress := by
  intro s p rest _ hm hr
  refine ⟨_, step_reset hm hr, rfl, fun cs hcs => ⟨?keyless, fun k c => ?key⟩⟩
  case keyless =>
    obtain ⟨e, he⟩ := commandEffects_of_not_initialized (s := resetBlock (s.setMoves rest)) rfl hcs
    have hrun := (runCommands_idle cs rfl).trans (congrArg Host.Outcome.next he)
    exact ⟨_, hrun, rfl, rfl, rfl, fun c => ⟨_, exec_next_of_not_initialized c rfl rfl, rfl⟩⟩
  case key =>
    refine ⟨_, runCommands_idle _ rfl, ?_⟩
    rw [commandEffects_append, commandEffects_init_next_err]

/-! ### INIT, tick by tick (R77, R117) -/

theorem ticks_append (ps qs : List Inputs) (s : State) : ticks (ps ++ qs) s = ticks qs (ticks ps s) := List.foldl_append

theorem ticks_concat (ps : List Inputs) (p : Inputs) (s : State) : ticks (ps ++ [p]) s = tick p (ticks ps s) :=
  ticks_append ps [p] s

theorem keySequence_length (k : Key) : (keySequence k).length = 64 := by
  simp [keySequence, Config.mixTicks]

/-- The first n + 1 key bits are the first n and the bit of J = n. -/
theorem keySequence_take_succ {n : Nat} (k : Key) (hn : n < 64) :
    (keySequence k).take (n + 1) = (keySequence k).take n ++ [keyBit k (BitVec.ofNat 7 n)] := by
  rw [List.take_succ_eq_append_getElem (by rwa [keySequence_length])]
  simp [keySequence]

/-- Before J reaches m it does not show m: the 7-bit counter has not wrapped (R29). -/
theorem tickCount_ne {n m : Nat} (hlt : n < m) (hm : m < 128) : BitVec.ofNat 7 n ≠ BitVec.ofNat 7 m := by
  intro h
  have hmod : n % 2 ^ 7 = m % 2 ^ 7 := congrArg BitVec.toNat h
  omega

/-- Fewer than 64 ticks of the mixing phase mix as many key bits, and J counts them. -/
theorem ticks_mix {s : State} {ps : List Inputs} (hp : s.phase = .mix) (hj : s.j = 0#7) (hrst : ∀ p ∈ ps, p.rst = false)
    (hlen : ps.length < 64) : ticks ps s =
      (s.setRegs (mixSequence ((keySequence s.key).take ps.length) s.regs)).setJ (BitVec.ofNat 7 ps.length) := by
  induction ps using List.reverseRecOn with
  | nil => exact State.ext rfl rfl rfl rfl hj rfl rfl rfl rfl rfl
  | append_singleton ps p ih =>
    rw [List.length_append, List.length_singleton] at hlen ⊢
    have hbefore := ih (fun q hq => hrst q (List.mem_append_left _ hq)) (by omega)
    have hmore : BitVec.ofNat 7 ps.length ≠ 63#7 := tickCount_ne (by omega) (by decide)
    rw [ticks_concat, hbefore, tick_run _ (hrst p (by simp)), sequencerTick_mix p (by exact hp),
      mixPhaseTick_more (by exact hmore), keySequence_take_succ _ (by omega), mixSequence_concat, BitVec.ofNat_add]
    rfl

/-- The 64th tick of the mixing phase ends it with the whole key mixed. -/
theorem ticks_mix_last {s : State} {ps : List Inputs} (hp : s.phase = .mix) (hj : s.j = 0#7)
    (hrst : ∀ p ∈ ps, p.rst = false) (hlen : ps.length = 64) : ticks ps s =
      ((s.setRegs (mixSequence (keySequence s.key) s.regs)).setPhase .warm).setJ 0#7 := by
  obtain rfl | ⟨qs, p, rfl⟩ := List.eq_nil_or_concat' ps
  · simp at hlen
  · have h63 : qs.length = 63 := by simpa using hlen
    have hbefore := ticks_mix hp hj (fun q hq => hrst q (List.mem_append_left _ hq)) (by omega)
    have hall : keySequence s.key = (keySequence s.key).take 63 ++ [keyBit s.key 63#7] := by
      rw [← keySequence_take_succ _ (by decide), List.take_of_length_le (keySequence_length _).le]
    rw [ticks_concat, hbefore, h63, tick_run _ (hrst p (by simp)), sequencerTick_mix p (by exact hp),
      mixPhaseTick_last (by rfl), hall, mixSequence_concat, ← hall]
    rfl

/-- Fewer than 100 ticks of the warm-up phase are as many majority-clocking ticks, and J counts them. -/
theorem ticks_warm {s : State} {ps : List Inputs} (hp : s.phase = .warm) (hj : s.j = 0#7)
    (hrst : ∀ p ∈ ps, p.rst = false) (hlen : ps.length < 100) :
    ticks ps s = (s.setRegs (clockTicks ps.length s.regs)).setJ (BitVec.ofNat 7 ps.length) := by
  induction ps using List.reverseRecOn with
  | nil => exact State.ext rfl rfl rfl rfl hj rfl rfl rfl rfl rfl
  | append_singleton ps p ih =>
    rw [List.length_append, List.length_singleton] at hlen ⊢
    have hbefore := ih (fun q hq => hrst q (List.mem_append_left _ hq)) (by omega)
    have hmore : BitVec.ofNat 7 ps.length ≠ 99#7 := tickCount_ne (by omega) (by decide)
    rw [ticks_concat, hbefore, tick_run _ (hrst p (by simp)), sequencerTick_warm p (by exact hp),
      warmPhaseTick_more (by exact hmore), clockTicks_succ, BitVec.ofNat_add]
    rfl

/-- After INIT's acceptance, 64 ticks mix the whole key and the later ones, fewer than 100, warm up. -/
theorem ticks_acceptInit_warm {ps : List Inputs} (k : Key) (s : State) (hrst : ∀ p ∈ ps, p.rst = false)
    (hlo : 64 ≤ ps.length) (hhi : ps.length < 164) : ticks ps (acceptInit k s) =
      (((acceptInit k s).setRegs (clockTicks (ps.length - 64) (mixSequence (keySequence k) zeroRegs))).setPhase .warm).setJ
        (BitVec.ofNat 7 (ps.length - 64)) := by
  obtain ⟨ms, ws, rfl, hms⟩ : ∃ ms ws, ps = ms ++ ws ∧ ms.length = 64 :=
    ⟨ps.take 64, ps.drop 64, (List.take_append_drop 64 ps).symm, List.length_take_of_le hlo⟩
  obtain ⟨hmrst, hwrst⟩ := List.forall_mem_append.1 hrst
  rw [List.length_append, hms] at hhi
  have hmix := ticks_mix_last (s := acceptInit k s) rfl rfl hmrst hms
  rw [ticks_append, hmix, ticks_warm rfl rfl hwrst (by omega), List.length_append, hms, Nat.add_sub_cancel_left]
  rfl

/-- After INIT's acceptance, 164 ticks complete it. -/
theorem ticks_acceptInit_done {ps : List Inputs} (k : Key) (s : State) (hrst : ∀ p ∈ ps, p.rst = false)
    (hlen : ps.length = 164) : ticks ps (acceptInit k s) = (acceptInit k s).endInit (loadKey k) := by
  have hleft : (acceptInit k s).InitTicksLeft ps.length := by
    rw [hlen]
    exact (initTicksLeft_mix rfl).2 ⟨Nat.zero_le 63, rfl⟩
  exact (ticks_eq_completed_of_initTicksLeft hleft hrst).trans (completed_mix rfl)

/-- Settles O49: the state after n ticks is known in each of the three ranges of n, and the claim is about its fields. -/
theorem initTakes164Ticks : Obligations.InitTakes164Ticks := by
  intro s k ps hrst hlen
  have hcases : ps.length < 64 ∨ (64 ≤ ps.length ∧ ps.length < 164) ∨ ps.length = 164 := by omega
  obtain hmix | ⟨hlo, hhi⟩ | hdone := hcases
  · have hj : (BitVec.ofNat 7 ps.length).toNat = ps.length := Nat.mod_eq_of_lt (by omega)
    rw [ticks_mix rfl rfl hrst hmix, decide_eq_false (by omega), decide_eq_true (by omega)]
    exact ⟨rfl, rfl, rfl, fun _ => ⟨rfl, hj, rfl⟩, fun hlo => by omega⟩
  · have hj : (BitVec.ofNat 7 (ps.length - 64)).toNat = ps.length - 64 := Nat.mod_eq_of_lt (by omega)
    rw [ticks_acceptInit_warm k s hrst hlo hhi, decide_eq_false (by omega), decide_eq_true hhi]
    exact ⟨rfl, rfl, rfl, fun hmix => by omega, fun _ _ => ⟨rfl, hj, rfl⟩⟩
  · rw [ticks_acceptInit_done k s hrst hdone, hdone]
    exact ⟨rfl, rfl, rfl, fun hmix => by omega, fun _ hhi => by omega⟩

end Sys2Proof.Machine
end
